-- ==== Sys2Proof/Word.lean ====
section
/-! DEFINITION. The widths of PNGME-CRC32's data: 32-bit registers, 8-bit operand bytes, 12-bit command words. -/

namespace Sys2Proof

/-- A `u32`: the registers `crc` and `exp`, the checksum (00_scope.md section 5, `CRC_WIDTH`). -/
abbrev Word := BitVec 32

/-- A `u8`: a message byte or a checksum byte (00_scope.md section 5, `DATA_WIDTH`). -/
abbrev Byte := BitVec 8

/-- A command word as it stands on the port `cmd[11:0]` (R50, `CMD_WIDTH`). -/
abbrev CmdWord := BitVec 12

end Sys2Proof
end

