-- ==== Sys2Proof/Machine/Crc.lean ====
section
/-! DEFINITION. The CRC-32 function (40_crc_arithmetic.md): one bit, one byte in its three formulations, the table, the
checksum of a message, the inverse steps. The constants are the spec's, from general knowledge (G1 to G4; log entry 6). -/

namespace Sys2Proof.Machine

/-- `POLY_NORMAL`: the coefficient of `x^k` of the generator in bit `k`, `x^32` left out (R70). -/
def polyNormal : Word := 0x04C11DB7#32

/-- `POLY_REFLECTED`: the coefficient of `x^k` in bit `31 - k` (R70). -/
def polyReflected : Word := 0xEDB88320#32

/-- `CRC_INIT` (R75). -/
def crcInit : Word := 0xFFFFFFFF#32

/-- `CRC_XOROUT` (R75). -/
def crcXorOut : Word := 0xFFFFFFFF#32

/-- One shift of the register with nothing entering (R71). -/
def shift1 (r : Word) : Word := (r >>> 1) ^^^ (if r.getLsbD 0 then polyReflected else 0)

/-- One message bit enters (R71). -/
def bitstep (r : Word) (d : Bool) : Word := shift1 (r ^^^ (BitVec.ofBool d).setWidth 32)

/-- `n` shifts. -/
def shiftTimes : Nat → Word → Word
  | 0, r => r
  | n + 1, r => shiftTimes n (shift1 r)

/-- The byte step, normative form (R73). -/
def bytestep (r : Word) (b : Byte) : Word := shiftTimes 8 (r ^^^ b.setWidth 32)

/-- The bits of a byte in the order the CRC consumes them, bit 0 first (R33, R72). -/
def byteBits (b : Byte) : List Bool :=
  [b.getLsbD 0, b.getLsbD 1, b.getLsbD 2, b.getLsbD 3, b.getLsbD 4, b.getLsbD 5, b.getLsbD 6, b.getLsbD 7]

/-- The byte step, serial form (R72). -/
def bytestepSerial (r : Word) (b : Byte) : Word := (byteBits b).foldl bitstep r

/-- Entry `i` of the table: eight shifts of `zext_32(i)` (R74). A constant, not state (R20). -/
def crcTable (i : Byte) : Word := shiftTimes 8 (i.setWidth 32)

/-- The byte step, table form (R74). -/
def bytestepTable (r : Word) (b : Byte) : Word :=
  crcTable ((r ^^^ b.setWidth 32).extractLsb' 0 8) ^^^ (r >>> 8)

/-- The register after the bytes of a message: `r` at the end of R75's loop (R75, R79). -/
def crcRegister (m : List Byte) : Word := m.foldl bytestep crcInit

/-- The checksum of a message (R75). -/
def crc32 (m : List Byte) : Word := crcRegister m ^^^ crcXorOut

/-- The bits of a message in stream order (R77): byte 0 first, bit 0 of each byte first. -/
def messageBits (m : List Byte) : List Bool := m.flatMap byteBits

/-- The inverse of `shift1` (R82). -/
def unshift1 (s : Word) : Word :=
  if s.getLsbD 31 then ((s ^^^ polyReflected) <<< 1) ||| 1 else s <<< 1

/-- `n` inverse shifts. -/
def unshiftTimes : Nat → Word → Word
  | 0, r => r
  | n + 1, r => unshiftTimes n (unshift1 r)

/-- The inverse of `bytestep` for a fixed byte (R82). -/
def unbytestep (r : Word) (b : Byte) : Word := unshiftTimes 8 r ^^^ b.setWidth 32

end Sys2Proof.Machine
end

