-- ==== Sys2Proof/Syntax.lean ====
section
/-! DEFINITION. The five commands of the block (R52), one constructor per row of spec/opcode_table.json, and the lines of the
assembler (R60, R61). -/

namespace Sys2Proof

/-- A command. The operand of `UPD` and `LDX` is exactly an 8-bit field, so every term is a command of the block (R50, R51, R52). -/
inductive Instr where
  /-- `NOP`: do nothing (R100). -/
  | nop
  /-- `INIT`: start a new message (R101). -/
  | init
  /-- `UPD imm8`: absorb one message byte (R102). -/
  | upd (imm8 : Byte)
  /-- `LDX imm8`: load the next byte of the expected checksum (R110). -/
  | ldx (imm8 : Byte)
  /-- `VFY`: compare the checksum of the message with the expected checksum (R111). -/
  | vfy
  deriving DecidableEq, Repr

/-- A statement of the assembler: the six lines of R60 and the five pseudo-instructions of R61. Operands are numbers, as the
source text gives them; whether they are in range is checked in WellFormed.lean. Texts are lists of character codes. -/
inductive AsmStmt where
  | nop
  | init
  | upd (b : Nat)
  | ldx (b : Nat)
  | vfy
  /-- `.word 0xHHH`: the 12-bit word as given. -/
  | word (w : Nat)
  /-- `upds "<text>"`: one `upd` per character. -/
  | upds (text : List Nat)
  /-- `updx HH HH ...`: one `upd` per byte. -/
  | updx (bytes : List Nat)
  /-- `ldx32 0xHHHHHHHH`: four `ldx`, most significant byte first. -/
  | ldx32 (v : Nat)
  /-- `crcof "<tag>" "<text>"`: the compute transaction. -/
  | crcof (tag text : List Nat)
  /-- `check "<tag>" "<text>" 0xHHHHHHHH`: the verify transaction. -/
  | check (tag text : List Nat) (v : Nat)
  deriving DecidableEq, Repr

end Sys2Proof
end

