-- ==== Sys2Proof/Machine/State.lean ====
section
/-! DEFINITION. The state of PNGME-CRC32: the five registers of R10, and beside them the host's list of port inputs (log
entry 1). The block's faults are values of the register `fault`, not stops of the machine (R140, R141, R142). -/

namespace Sys2Proof.Machine

/-- The value of the register `fault`: the recorded cause, or none (R17, R140). All four 2-bit values have a name; their
codes are `Cause.code` in Flags.lean. -/
inductive Cause where
  /-- Code 0: no fault recorded. -/
  | none
  /-- Code 1: `VFY` found `crc_out != exp`; the source's `InvalidChecksum`. -/
  | checksum
  /-- Code 2: a fifth `LDX`, or `VFY` with fewer than four bytes loaded. -/
  | protocol
  /-- Code 3: a reserved word was executed. -/
  | illegal
  deriving DecidableEq, Repr

/-- The input pins at one rising edge of `clk` (R19). -/
structure PortInput where
  /-- `rst`: synchronous reset, active high. -/
  rst      : Bool
  /-- `cmd_valid`: `cmd` holds a command to execute at this edge. -/
  cmdValid : Bool
  /-- `cmd[11:0]`: the command word. -/
  cmd      : CmdWord
  deriving DecidableEq, Repr

/-- The reasons for which a step STOPS the machine: there are none. All 4096 words have a defined effect in every state
(R54), a block fault is a next state with its cause in the register `fault` (R141), and a faulted block still steps, by
ignoring (R142). No one raises a value of this type; safe (log entry 5). -/
inductive Fault where
  deriving DecidableEq, Repr

/-- The reasons for which a step refuses an instruction. -/
inductive Refusal where
  /-- An instruction that has no meaning yet, by its mnemonic. Raised by an arm of `exec` only, and by no arm at present: every
  command of R52 has its meaning. Safe. -/
  | notModelled (mnemonic : String)
  deriving DecidableEq, Repr

/-- The five registers of R10 and the host's coming port inputs. -/
structure State where
  /-- The running CRC register, reflected form, before the final exclusive-or (R11). -/
  crc   : Word
  /-- The expected checksum being assembled, most significant byte first (R14). -/
  exp   : Word
  /-- The number of `LDX` bytes accepted since the last `INIT` or reset, 0 to 4 (R15; the type as U2 asks, log entry 3). -/
  xcnt  : Fin 5
  /-- "Verified OK": the last `VFY` matched and `crc` has not changed since (R16). -/
  vok   : Bool
  /-- The recorded fault cause (R17). -/
  fault : Cause
  /-- HOST DATA, no register of the block (R13, R130; log entry 1): the input pins at the coming rising edges, the next edge
  first. When it is empty the host presents nothing. -/
  port  : List PortInput
  deriving DecidableEq, Repr

/-- The state right after reset (R22, R170), with nothing presented yet (log entry 1). -/
def State.reset : State where
  crc   := 0xFFFFFFFF#32
  exp   := 0x00000000#32
  xcnt  := 0
  vok   := false
  fault := .none
  port  := []

end Sys2Proof.Machine
end

