-- ==== Sys2Proof/Machine/Ops.lean ====
section
/-! DEFINITION. The named operations on the state: register writes, raising a fault (R141), ignoring a command in a faulted
state (R142), reset (R170), taking the pins of the next edge (R19). -/

namespace Sys2Proof.Machine

/-- `crc <- v`. -/
def State.setCrc (s : State) (v : Word) : State := { s with crc := v }

/-- `exp <- v`. -/
def State.setExp (s : State) (v : Word) : State := { s with exp := v }

/-- `xcnt <- v`. -/
def State.setXcnt (s : State) (v : Fin 5) : State := { s with xcnt := v }

/-- `vok <- v`. -/
def State.setVok (s : State) (v : Bool) : State := { s with vok := v }

/-- `fault <- c`. -/
def State.setFault (s : State) (c : Cause) : State := { s with fault := c }

/-- The host's coming inputs are `l`. No command does this; taking the pins of an edge and placing a command do. -/
def State.setPort (s : State) (l : List PortInput) : State := { s with port := l }

/-- `raise <cause>`: `fault <- code(<cause>)` and no other register is written (R141). Nothing is saved, no mode changes and
control goes nowhere. -/
def raiseFault (c : Cause) (s : State) : State := s.setFault c

/-- A command is executed only when `fault == 0`; else it is consumed and the state is unchanged (R142). -/
def unlessFaulted (effect : State → State) (s : State) : Host.Outcome State Fault Refusal :=
  .next (if s.fault = .none then effect s else s)

/-- A word that decodes to `RESERVED` raises `ILLEGAL` (R54, R142). -/
def execReserved (s : State) : Host.Outcome State Fault Refusal := unlessFaulted (raiseFault .illegal) s

/-- The registers of a message as `INIT` and reset leave them: everything but `fault` (R22, R101). -/
def clearMessage (s : State) : State :=
  (((s.setCrc crcInit).setExp 0).setXcnt 0).setVok false

/-- Reset: all five registers take their reset values (R22, R170); what the host presents later is untouched. The only way
out of the faulted state (R146). -/
def applyReset (s : State) : State := (clearMessage s).setFault .none

/-- The pins while the host presents nothing: no reset, no valid command (R19). -/
def idlePins : PortInput where
  rst := false
  cmdValid := false
  cmd := 0

/-- The pins of the next edge, and the state with that edge taken off the list. An empty list is a host that presents
nothing (R130; log entry 2). -/
def takeInput (s : State) : PortInput × State :=
  match s.port with
  | [] => (idlePins, s)
  | i :: rest => (i, s.setPort rest)

end Sys2Proof.Machine
end

