-- ==== Sys2Proof/Machine/Flags.lean ====
section
/-! DEFINITION. The two status flags and the conditions the commands test (R16, R17, R23), the fault codes (R140), and the
output ports, each a pure function of the registers (R18). -/

namespace Sys2Proof.Machine

/-- The 2-bit code of a cause (R17, R140). -/
def Cause.code : Cause → BitVec 2
  | .none => 0
  | .checksum => 1
  | .protocol => 2
  | .illegal => 3

/-- The output `crc_out`: the checksum of the message so far (R18). -/
def State.crcOut (s : State) : Word := s.crc ^^^ crcXorOut

/-- `xcnt == 4`: the checksum field is fully loaded (R110, R111). -/
def fieldLoaded (s : State) : Bool := s.xcnt == 4

/-- `crc_out == exp`, all 32 bits (R111). -/
def checksumMatches (s : State) : Bool := s.crcOut == s.exp

/-- The output ports (R18). -/
structure Outputs where
  crcOut   : Word
  xcnt     : BitVec 3
  vok      : BitVec 1
  fault    : BitVec 2
  cmdReady : BitVec 1
  deriving DecidableEq, Repr

/-- What the output ports show in a state; `cmd_ready` is constant 1 and `exp` has no port (R14, R18). -/
def State.outputs (s : State) : Outputs where
  crcOut   := s.crcOut
  xcnt     := BitVec.ofNat 3 s.xcnt.val
  vok      := BitVec.ofBool s.vok
  fault    := s.fault.code
  cmdReady := 1

end Sys2Proof.Machine
end

