-- ==== Sys2Proof/Machine/Message.lean ====
section
/-! DEFINITION. The message commands `NOP`, `INIT`, `UPD` (41_message_commands.md). -/

namespace Sys2Proof.Machine

/-- `UPD`'s register writes: `crc <- bytestep(crc, b)`, `vok <- 0` (R102). -/
def absorbByte (b : Byte) (s : State) : State := (s.setCrc (bytestep s.crc b)).setVok false

/-- `NOP`: no register is written (R100). -/
def execNop (s : State) : Host.Outcome State Fault Refusal := unlessFaulted (fun u => u) s

/-- `INIT`: start a new message; `fault` is not written (R101). -/
def execInit (s : State) : Host.Outcome State Fault Refusal := unlessFaulted clearMessage s

/-- `UPD imm8`: absorb one message byte (R102). -/
def execUpd (imm8 : Byte) (s : State) : Host.Outcome State Fault Refusal := unlessFaulted (absorbByte imm8) s

end Sys2Proof.Machine
end

