-- ==== Sys2Proof/Machine/Operands.lean ====
section
/-! DEFINITION. How operand bytes enter the registers and how the checksum is split into bytes. There is one operand form,
`imm8`, zero-extended (R51); the field itself is cut out in Decode.lean. -/

namespace Sys2Proof.Machine

/-- `zext_32(imm8)` (R51). -/
def zextByte (b : Byte) : Word := b.setWidth 32

/-- `(exp << 8) or zext_32(b)`: the next byte enters at the low end (R14, R110). -/
def shiftInByte (e : Word) (b : Byte) : Word := (e <<< 8) ||| zextByte b

/-- `be4(v)`: the four bytes of a `u32`, most significant first (R32). -/
def be4 (v : Word) : List Byte :=
  [v.extractLsb' 24 8, v.extractLsb' 16 8, v.extractLsb' 8 8, v.extractLsb' 0 8]

/-- The four bytes of a `u32`, least significant first: the order the residue law R84 speaks of. -/
def le4 (v : Word) : List Byte :=
  [v.extractLsb' 0 8, v.extractLsb' 8 8, v.extractLsb' 16 8, v.extractLsb' 24 8]

/-- What `exp` holds after these bytes have been loaded into a zero `exp` (R14). -/
def loadedValue (bytes : List Byte) : Word := bytes.foldl shiftInByte 0

end Sys2Proof.Machine
end

