-- ==== Sys2Proof/Machine/Verify.lean ====
section
/-! DEFINITION. The verification commands `LDX`, `VFY` (42_verify_commands.md). -/

namespace Sys2Proof.Machine

/-- `LDX` in an unfaulted state: a fifth byte raises `PROTOCOL`, else the byte is shifted into `exp` and counted (R110). -/
def loadByte (b : Byte) (s : State) : State :=
  if fieldLoaded s then raiseFault .protocol s
  else (s.setExp (shiftInByte s.exp b)).setXcnt (s.xcnt + 1)

/-- `VFY` in an unfaulted state: the sequence condition is tested first, then the comparison (R111, R143). -/
def compareChecksum (s : State) : State :=
  if fieldLoaded s then
    (if checksumMatches s then s.setVok true else raiseFault .checksum s)
  else raiseFault .protocol s

/-- `LDX imm8`: load the next byte of the expected checksum (R110). -/
def execLdx (imm8 : Byte) (s : State) : Host.Outcome State Fault Refusal := unlessFaulted (loadByte imm8) s

/-- `VFY`: compare the checksum of the message with the expected checksum (R111). -/
def execVfy (s : State) : Host.Outcome State Fault Refusal := unlessFaulted compareChecksum s

end Sys2Proof.Machine
end

