-- ==== Sys2Proof/Machine/Dispatch.lean ====
section
/-! DEFINITION. One arm per command (R52, R142). -/

namespace Sys2Proof.Machine

def exec (i : Instr) (s : State) : Host.Outcome State Fault Refusal :=
  match i with
  | .nop => Sys2Proof.Machine.execNop s
  | .init => Sys2Proof.Machine.execInit s
  | .upd imm8 => Sys2Proof.Machine.execUpd imm8 s
  | .ldx imm8 => Sys2Proof.Machine.execLdx imm8 s
  | .vfy => Sys2Proof.Machine.execVfy s

end Sys2Proof.Machine
end

