-- ==== Sys2Proof/WellFormed.lean ====
section
/-! DEFINITION. Which command words and which assembler statements are well formed. A term of `Instr` needs no check: its
operand has exactly the values the field has (R51), so the checks are on words (R54) and on the assembler's numbers (R60). -/

namespace Sys2Proof

/-- The four rows of R54's table of reserved words, by their numbers. -/
def reservedWord (w : CmdWord) : Bool :=
  (0x001 ≤ w.toNat && w.toNat ≤ 0x0FF) ||
  (0x101 ≤ w.toNat && w.toNat ≤ 0x1FF) ||
  (0x401 ≤ w.toNat && w.toNat ≤ 0x4FF) ||
  (0x500 ≤ w.toNat && w.toNat ≤ 0xFFF)

/-- A word that selects a command (R52): every word that is not reserved. -/
def wordWellFormed (w : CmdWord) : Bool := !reservedWord w

/-- A printable ASCII character, by its code (R60). -/
def printable (c : Nat) : Bool := 0x20 ≤ c && c ≤ 0x7E

/-- A character that may stand in the text of a pseudo-instruction: printable ASCII without the double quote (R61). -/
def textChar (c : Nat) : Bool := printable c && c != 0x22

/-- The operand checks of R60 and R61: an operand outside its range is an assembler error. DESIGN CHOICE (log entry 10): R61 gives
no check of a tag's length, so `crcof` and `check` take a tag of any length, the empty one too, and expand it as it stands. -/
def AsmStmt.wellFormed : AsmStmt → Bool
  | .nop => true
  | .init => true
  | .upd b => b ≤ 255
  | .ldx b => b ≤ 255
  | .vfy => true
  | .word w => w < 2 ^ 12
  | .upds text => text.all textChar
  | .updx bytes => bytes.all (· ≤ 255)
  | .ldx32 v => v < 2 ^ 32
  | .crcof tag text => tag.all textChar && text.all textChar
  | .check tag text v => tag.all textChar && text.all textChar && decide (v < 2 ^ 32)

end Sys2Proof
end

