-- ==== Sys2Proof/Decode.lean ====
section
/-! DEFINITION. Command encoding: the fields of a word (R50, R51), the opcode map (R52), the total decoder (R53, R54) and the
encoder written from the same map. -/

namespace Sys2Proof

/-- `op = w[11:8]` (R51). -/
def opField (w : CmdWord) : BitVec 4 := w.extractLsb' 8 4

/-- `imm8 = w[7:0]` (R51). -/
def immField (w : CmdWord) : Byte := w.extractLsb' 0 8

/-- The 12-bit word with `op` in the high bits (R50, format `C`). -/
def formatC (op : BitVec 4) (imm8 : Byte) : CmdWord := op ++ imm8

/-- Why a word is reserved: the column "why reserved" of R54. -/
inductive Reserved where
  /-- `op` of `NOP`, `INIT` or `VFY` with an operand that is not zero. -/
  | operandNotZero (op : BitVec 4) (imm8 : Byte)
  /-- `op` from 5 to 15. -/
  | unusedOpcode (op : BitVec 4) (imm8 : Byte)
  deriving DecidableEq, Repr

/-- What a word decodes to: a command, or `RESERVED` with its reason (R53). -/
inductive Decoded where
  | cmd (i : Instr)
  | reserved (why : Reserved)
  deriving DecidableEq, Repr

/-- The decoder of R53: total, reads no state. -/
def decode (w : CmdWord) : Decoded :=
  let op := opField w
  let imm8 := immField w
  if op = 0 then (if imm8 = 0 then .cmd .nop else .reserved (.operandNotZero op imm8))
  else if op = 1 then (if imm8 = 0 then .cmd .init else .reserved (.operandNotZero op imm8))
  else if op = 2 then .cmd (.upd imm8)
  else if op = 3 then .cmd (.ldx imm8)
  else if op = 4 then (if imm8 = 0 then .cmd .vfy else .reserved (.operandNotZero op imm8))
  else .reserved (.unusedOpcode op imm8)

/-- The command a decoding gives, if it gives one. -/
def Decoded.instr? : Decoded → Option Instr
  | .cmd i => some i
  | .reserved _ => none

/-- The word of a command (R52). -/
def encode : Instr → CmdWord
  | .nop => formatC 0 0
  | .init => formatC 1 0
  | .upd imm8 => formatC 2 imm8
  | .ldx imm8 => formatC 3 imm8
  | .vfy => formatC 4 0

/-- A row of the opcode map: a word `w` selects it iff `(w and mask) == match` (R52). -/
structure OpcodeRow where
  mnemonic : String
  pattern  : CmdWord
  mask     : CmdWord
  deriving DecidableEq, Repr

/-- The rows of R52 and of spec/opcode_table.json, in the table's order. -/
def opcodeRows : List OpcodeRow :=
  [⟨"NOP", 0x000, 0xFFF⟩, ⟨"INIT", 0x100, 0xFFF⟩, ⟨"UPD", 0x200, 0xF00⟩, ⟨"LDX", 0x300, 0xF00⟩, ⟨"VFY", 0x400, 0xFFF⟩]

/-- Whether a word selects a row (R52). -/
def OpcodeRow.selects (r : OpcodeRow) (w : CmdWord) : Bool := w &&& r.mask == r.pattern

/-- The row a command belongs to (R52). -/
def Instr.row : Instr → OpcodeRow
  | .nop => ⟨"NOP", 0x000, 0xFFF⟩
  | .init => ⟨"INIT", 0x100, 0xFFF⟩
  | .upd _ => ⟨"UPD", 0x200, 0xF00⟩
  | .ldx _ => ⟨"LDX", 0x300, 0xF00⟩
  | .vfy => ⟨"VFY", 0x400, 0xFFF⟩

/-- The 12-bit word whose bits are the low `nbits` bits of `w`, bit 0 the least significant (R50); none where a bit above
`cmd[11]` is set, since no such word can stand on the port (log entry 11). -/
def tableWord (nbits w : Nat) : Option CmdWord :=
  let v := w % 2 ^ nbits
  if v < 4096 then some (BitVec.ofNat 12 v) else none

/-- The command the decoder reads from an opcode-table word; none where it refuses (log entry 11). -/
def decodeTableWord (nbits w : Nat) : Option Instr :=
  match tableWord nbits w with
  | some word => (decode word).instr?
  | none => none

end Sys2Proof
end

