-- ==== Sys2Proof/Machine/Port.lean ====
section
/-! DEFINITION. What the pins at a rising edge ask of the block (R19, R57), and how a host presents commands. -/

namespace Sys2Proof.Machine

/-- What one rising edge is to the block: the two kinds of step of R19, and the edge at which nothing is asked. -/
inductive Edge where
  /-- `rst == 1`. -/
  | reset
  /-- `cmd_valid == 1` and `rst == 0`: the word on `cmd` is executed. -/
  | command (w : CmdWord)
  /-- `cmd_valid == 0` and `rst == 0`: a stutter step. -/
  | idle
  deriving DecidableEq, Repr

/-- `rst` wins over a command, and `cmd` is ignored unless `cmd_valid == 1` and `rst == 0` (R19, R57, R143, R170). -/
def PortInput.edge (i : PortInput) : Edge :=
  if i.rst then .reset else if i.cmdValid then .command i.cmd else .idle

/-- The pins of an edge at which the host presents the word `w`. -/
def presentWord (w : CmdWord) : PortInput where
  rst := false
  cmdValid := true
  cmd := w

/-- The pins of an edge at which the host applies reset and presents nothing. -/
def presentReset : PortInput where
  rst := true
  cmdValid := false
  cmd := 0

/-- The pins of the edges at which the host presents these commands, one per edge. -/
def presentInstrs (is : List Instr) : List PortInput := is.map (fun i => presentWord (encode i))

/-- The state in which the host presents the opcode-table word `w` at the next edge, before whatever it presents later
(log entry 1). -/
def placeTableWord (s : State) (nbits w : Nat) : State :=
  s.setPort (presentWord (BitVec.ofNat 12 (w % 2 ^ nbits)) :: s.port)

end Sys2Proof.Machine
end

