-- ==== Sys2Proof/Machine/Step.lean ====
section
/-! DEFINITION. The step of the machine: one rising edge of `clk` (R19, R53, R142). -/

namespace Sys2Proof.Machine

/-- `exec(s, w)` of R142 on a command word: decode, then the rule of the command, a reserved word raising `ILLEGAL`. Each of
them is ignored in a faulted state. -/
def execWord (w : CmdWord) (s : State) : Host.Outcome State Fault Refusal :=
  match decode w with
  | .cmd i => exec i s
  | .reserved _ => execReserved s

/-- What an edge does (R19). -/
def execEdge (e : Edge) (s : State) : Host.Outcome State Fault Refusal :=
  match e with
  | .reset => .next (applyReset s)
  | .command w => execWord w s
  | .idle => .next s

/-- One rising edge: the pins of the next edge are taken off the host's list and act on the registers. -/
def step (s : State) : Host.Outcome State Fault Refusal :=
  execEdge (takeInput s).1.edge (takeInput s).2

/-- `s` with the opcode-table word `w` presented at the next edge (log entry 1). -/
def State.withFetchWord (s : State) (nbits w : Nat) : State := placeTableWord s nbits w

end Sys2Proof.Machine
end

