-- ==== Sys2Proof/Machine/Assembler.lean ====
section
/-! DEFINITION. The assembler of R60 and R61, its pseudo-instructions, its source text, and the disassembler. The block sees
only the words. What R60 leaves open about the text is fixed in log entry 10. -/

namespace Sys2Proof.Machine

/-- The word of a plain statement (R60); a pseudo-instruction has none of its own. -/
def plainWord : AsmStmt → Option CmdWord
  | .nop => some (encode .nop)
  | .init => some (encode .init)
  | .upd b => some (encode (.upd (BitVec.ofNat 8 b)))
  | .ldx b => some (encode (.ldx (BitVec.ofNat 8 b)))
  | .vfy => some (encode .vfy)
  | .word w => some (BitVec.ofNat 12 w)
  | .upds _ => none
  | .updx _ => none
  | .ldx32 _ => none
  | .crcof _ _ => none
  | .check _ _ _ => none

/-- The expansion of a pseudo-instruction into plain statements; a plain statement stands for itself (R61). -/
def expand : AsmStmt → List AsmStmt
  | .upds text => text.map .upd
  | .updx bytes => bytes.map .upd
  | .ldx32 v => (be4 (BitVec.ofNat 32 v)).map (fun b => .ldx b.toNat)
  | .crcof tag text => .init :: (tag.map .upd ++ text.map .upd)
  | .check tag text v =>
      .init :: (tag.map .upd ++ text.map .upd ++ (be4 (BitVec.ofNat 32 v)).map (fun b => .ldx b.toNat) ++ [.vfy])
  | .nop => [.nop]
  | .init => [.init]
  | .upd b => [.upd b]
  | .ldx b => [.ldx b]
  | .vfy => [.vfy]
  | .word w => [.word w]

/-- The words of a statement; an operand out of range is an assembler error and produces no word (R60, R61). -/
def assembleStmt (s : AsmStmt) : Option (List CmdWord) :=
  if s.wellFormed then (expand s).mapM plainWord else none

/-- A piece of a source line. -/
inductive AsmToken where
  /-- A run of characters without blanks or quotes. -/
  | bare (chars : List Char)
  /-- A printable character in single quotes. -/
  | quoted (c : Char)
  /-- A text in double quotes. -/
  | text (chars : List Char)
  deriving DecidableEq, Repr

/-- Where the reader of a line stands. -/
inductive LexMode where
  /-- Between tokens. -/
  | gap
  /-- In a bare token; the characters so far, last first. -/
  | bare (acc : List Char)
  /-- After an opening single quote. -/
  | quoteOpen
  /-- After the character in single quotes. -/
  | quoteFull (c : Char)
  /-- In a text; the characters so far, last first. -/
  | text (acc : List Char)
  /-- After a closing quote: a blank, a comment or the end must follow. -/
  | closed
  deriving DecidableEq, Repr

/-- A blank between tokens (log entry 10). -/
def isBlank (c : Char) : Bool := c == ' ' || c == '\t'

/-- The tokens of a line; a comment starts at `;` and runs to the end of the line (R60). Where quotes and `;` may stand is in log
entry 10 (DESIGN CHOICE). -/
def lexLine : LexMode → List Char → Option (List AsmToken)
  | .gap, [] => some []
  | .bare acc, [] => some [.bare acc.reverse]
  | .quoteOpen, [] => none
  | .quoteFull _, [] => none
  | .text _, [] => none
  | .closed, [] => some []
  | .gap, c :: cs =>
      if isBlank c then lexLine .gap cs
      else if c == ';' then some []
      else if c == '\'' then lexLine .quoteOpen cs
      else if c == '"' then lexLine (.text []) cs
      else lexLine (.bare [c]) cs
  | .bare acc, c :: cs =>
      if isBlank c then (lexLine .gap cs).map (.bare acc.reverse :: ·)
      else if c == ';' then some [.bare acc.reverse]
      else if c == '\'' || c == '"' then none
      else lexLine (.bare (c :: acc)) cs
  | .quoteOpen, c :: cs => if printable c.toNat then lexLine (.quoteFull c) cs else none
  | .quoteFull d, c :: cs => if c == '\'' then (lexLine .closed cs).map (.quoted d :: ·) else none
  | .text acc, c :: cs =>
      if c == '"' then (lexLine .closed cs).map (.text acc.reverse :: ·) else lexLine (.text (c :: acc)) cs
  | .closed, c :: cs => if isBlank c then lexLine .gap cs else if c == ';' then some [] else none

/-- The value of a decimal digit. -/
def decDigit (c : Char) : Option Nat :=
  if '0' ≤ c ∧ c ≤ '9' then some (c.toNat - '0'.toNat) else none

/-- The value of a hexadecimal digit, either case (log entry 10). -/
def hexDigit (c : Char) : Option Nat :=
  if '0' ≤ c ∧ c ≤ '9' then some (c.toNat - '0'.toNat)
  else if 'a' ≤ c ∧ c ≤ 'f' then some (c.toNat - 'a'.toNat + 10)
  else if 'A' ≤ c ∧ c ≤ 'F' then some (c.toNat - 'A'.toNat + 10)
  else none

/-- The number a non-empty list of digits writes in a base, most significant first. -/
def readDigits (digit : Char → Option Nat) (base : Nat) : List Char → Option Nat
  | [] => none
  | c :: cs => cs.foldl (fun acc d => do return (← acc) * base + (← digit d)) (digit c)

/-- The number written by exactly `n` hexadecimal digits. -/
def readHex (n : Nat) (cs : List Char) : Option Nat :=
  if cs.length = n then readDigits hexDigit 16 cs else none

/-- The number written by `0x` and exactly `n` hexadecimal digits. -/
def readHex0x (n : Nat) : List Char → Option Nat
  | '0' :: 'x' :: cs => readHex n cs
  | _ => none

/-- A byte operand: `0x` and two hexadecimal digits, a decimal number, or a character in single quotes (R60). That a decimal
number is at most 255 is checked by `AsmStmt.wellFormed`. -/
def readByte : AsmToken → Option Nat
  | .bare cs => (readHex0x 2 cs).orElse fun _ => readDigits decDigit 10 cs
  | .quoted c => some c.toNat
  | .text _ => none

/-- A bare token read by `read`. -/
def readBare (read : List Char → Option Nat) : AsmToken → Option Nat
  | .bare cs => read cs
  | .quoted _ => none
  | .text _ => none

/-- The mnemonics and pseudo-instructions (R60, R61). -/
inductive Mnemonic where
  | nop | init | upd | ldx | vfy | word | upds | updx | ldx32 | crcof | check
  deriving DecidableEq, Repr

/-- How each name is spelt, in lower case (R60, R61). -/
def Mnemonic.spelling : Mnemonic → List Char
  | .nop => ['n', 'o', 'p']
  | .init => ['i', 'n', 'i', 't']
  | .upd => ['u', 'p', 'd']
  | .ldx => ['l', 'd', 'x']
  | .vfy => ['v', 'f', 'y']
  | .word => ['.', 'w', 'o', 'r', 'd']
  | .upds => ['u', 'p', 'd', 's']
  | .updx => ['u', 'p', 'd', 'x']
  | .ldx32 => ['l', 'd', 'x', '3', '2']
  | .crcof => ['c', 'r', 'c', 'o', 'f']
  | .check => ['c', 'h', 'e', 'c', 'k']

/-- All names. -/
def allMnemonics : List Mnemonic := [.nop, .init, .upd, .ldx, .vfy, .word, .upds, .updx, .ldx32, .crcof, .check]

/-- The name a token spells; mnemonics are case-insensitive (R60). -/
def readMnemonic (cs : List Char) : Option Mnemonic :=
  allMnemonics.find? (fun m => m.spelling == cs.map Char.toLower)

/-- A statement from its name and operands. An operand on `nop`, `init` or `vfy`, or a missing operand, is an error (R60); so is any
other number or kind of operands than the syntax shows (DESIGN CHOICE, log entry 10). -/
def readStmt : Mnemonic → List AsmToken → Option AsmStmt
  | .nop, [] => some .nop
  | .init, [] => some .init
  | .vfy, [] => some .vfy
  | .upd, [o] => (readByte o).map .upd
  | .ldx, [o] => (readByte o).map .ldx
  | .word, [o] => (readBare (readHex0x 3) o).map .word
  | .upds, [.text t] => some (.upds (t.map Char.toNat))
  | .updx, o :: os => ((o :: os).mapM (readBare (readHex 2))).map .updx
  | .ldx32, [o] => (readBare (readHex0x 8) o).map .ldx32
  | .crcof, [.text t, .text x] => some (.crcof (t.map Char.toNat) (x.map Char.toNat))
  | .check, [.text t, .text x, o] =>
      (readBare (readHex0x 8) o).map (.check (t.map Char.toNat) (x.map Char.toNat))
  | _, _ => none

/-- The words of one source line: none of them for a blank or comment line; `none` is an assembler error (R60). -/
def assembleLine (line : List Char) : Option (List CmdWord) :=
  match lexLine .gap line with
  | some [] => some []
  | some (.bare cs :: operands) => do
      let m ← readMnemonic cs
      let s ← readStmt m operands
      assembleStmt s
  | _ => none

/-- The words of a program, one command per line (R60); an error in a line makes the program an error (log entry 10). -/
def assemble (lines : List (List Char)) : Option (List CmdWord) :=
  (lines.mapM assembleLine).map List.flatten

/-- An upper-case hexadecimal digit. -/
def hexChar (d : BitVec 4) : Char :=
  ['0', '1', '2', '3', '4', '5', '6', '7', '8', '9', 'A', 'B', 'C', 'D', 'E', 'F'].getD d.toNat '0'

/-- `0x` and two upper-case hexadecimal digits (R60). -/
def showByte (b : Byte) : List Char := ['0', 'x', hexChar (b.extractLsb' 4 4), hexChar (b.extractLsb' 0 4)]

/-- The disassembly of a word (R60). DESIGN CHOICE (log entry 10): R60 fixes upper case for the two digits of a byte operand only;
the three digits of `.word` are printed in upper case too, the names in lower case, and one space stands before an operand. -/
def disassemble (w : CmdWord) : List Char :=
  match decode w with
  | .cmd .nop => Mnemonic.nop.spelling
  | .cmd .init => Mnemonic.init.spelling
  | .cmd (.upd b) => Mnemonic.upd.spelling ++ ' ' :: showByte b
  | .cmd (.ldx b) => Mnemonic.ldx.spelling ++ ' ' :: showByte b
  | .cmd .vfy => Mnemonic.vfy.spelling
  | .reserved _ =>
      Mnemonic.word.spelling ++
        [' ', '0', 'x', hexChar (w.extractLsb' 8 4), hexChar (w.extractLsb' 4 4), hexChar (w.extractLsb' 0 4)]

end Sys2Proof.Machine
end

