-- ==== Sys2Proof/Machine/Values.lean ====
section
/-! DEFINITION. The particular values of the checksum that R83 prints, and the two notions its item 4 speaks of: four bytes `FF`
followed by zero bytes, and a register value that a zero byte leaves unchanged. The values are written out to be held against
`crc32` and `crcRegister`, which compute them; nothing in the machine reads them. -/

namespace Sys2Proof.Machine

/-- The messages of R83 items 1 to 5 with their checksums. -/
def particularChecksums : List (List Byte × Word) :=
  [([], 0x00000000),
   ([0x00], 0xD202EF8D), ([0xFF], 0xFF000000), ([0x01], 0xA505DF1B), ([0x80], 0x3FBA6CAD), ([0x61], 0xE8B7BE43),
   ([0x00, 0x00, 0x00, 0x00], 0x2144DF1C),
   ([0xFF, 0xFF, 0xFF, 0xFF], 0xFFFFFFFF),
   ([0x49, 0x45, 0x4E, 0x44], 0xAE426082)]

/-- The messages of R83 whose register, before the final exclusive-or, the rule prints too (items 1 to 4). -/
def particularRegisters : List (List Byte × Word) :=
  [([], 0xFFFFFFFF), ([0xFF], 0x00FFFFFF), ([0x00, 0x00, 0x00, 0x00], 0xDEBB20E3), ([0xFF, 0xFF, 0xFF, 0xFF], 0x00000000)]

/-- Four bytes `FF` followed by `n` bytes `00` (R83 item 4). -/
def onesThenZeros (n : Nat) : List Byte := [0xFF, 0xFF, 0xFF, 0xFF] ++ List.replicate n 0x00

/-- Whether a zero byte leaves a register value unchanged (R83 item 4). -/
def zeroByteFixes (r : Word) : Bool := bytestep r 0x00 == r

end Sys2Proof.Machine
end

