-- ==== Sys2Proof/Machine/Transactions.lean ====
section
/-! DEFINITION. The command sequences by which a host uses the block on a chunk (43_chunk_transactions.md). `t` is the type
tag, `p` the payload, `c` the checksum bytes as they stand on the wire. -/

namespace Sys2Proof.Machine

/-- The message of a chunk: `TYPE ++ PAYLOAD`, in wire order (R31). -/
def chunkMessage (t p : List Byte) : List Byte := t ++ p

/-- `init`, then one `upd` per byte of the tag and of the payload (R120). -/
def computeTransaction (t p : List Byte) : List Instr := .init :: (chunkMessage t p).map .upd

/-- The compute transaction, then one `ldx` per checksum byte in wire order, then `vfy` (R121). -/
def verifyTransaction (t p c : List Byte) : List Instr := computeTransaction t p ++ c.map .ldx ++ [.vfy]

/-- The message bytes among some commands, in order. -/
def messageBytes : List Instr → List Byte
  | [] => []
  | .upd b :: is => b :: messageBytes is
  | .nop :: is => messageBytes is
  | .init :: is => messageBytes is
  | .ldx _ :: is => messageBytes is
  | .vfy :: is => messageBytes is

/-- The checksum bytes among some commands, in order. -/
def checksumBytes : List Instr → List Byte
  | [] => []
  | .ldx b :: is => b :: checksumBytes is
  | .nop :: is => checksumBytes is
  | .init :: is => checksumBytes is
  | .upd _ :: is => checksumBytes is
  | .vfy :: is => checksumBytes is

/-- Whether a command carries data: `UPD` or `LDX` (R35). -/
def carriesData : Instr → Bool
  | .upd _ => true
  | .ldx _ => true
  | .nop => false
  | .init => false
  | .vfy => false

/-- The bytes a host emits for a chunk once it has read `crc_out`: `be4(n) ++ t ++ p ++ be4(crc_out)` (R32, R120). -/
def chunkFrame (t p : List Byte) (crcOut : Word) : List Byte :=
  be4 (BitVec.ofNat 32 p.length) ++ t ++ p ++ be4 crcOut

/-- A chunk as a host has cut it out of a container: tag, payload, checksum bytes as they stand on the wire. -/
structure ChunkBytes where
  tag      : List Byte
  payload  : List Byte
  checksum : List Byte
  deriving DecidableEq, Repr

/-- The chunk as the container format has it: a four-byte tag and a four-byte checksum field (43_chunk_transactions.md
section 1). -/
def ChunkBytes.framed (k : ChunkBytes) : Prop := k.tag.length = 4 ∧ k.checksum.length = 4

/-- The checksum of the chunk is good (R121): `crc32(t ++ p) == {c[0], c[1], c[2], c[3]}`. -/
def ChunkBytes.good (k : ChunkBytes) : Prop := crc32 (chunkMessage k.tag k.payload) = loadedValue k.checksum

/-- Several chunks: one verify transaction each, in file order (R122). -/
def verifyAll (chunks : List ChunkBytes) : List Instr :=
  chunks.flatMap (fun k => verifyTransaction k.tag k.payload k.checksum)

end Sys2Proof.Machine
end

