-- ==== Sys2Proof/Safety.lean ====
section
/-! DEFINITION. What claims about the machine are stated in: the invariants of R21, the history of a run (R21 item 5), runs and
how they end well (R130). -/

namespace Sys2Proof

open Sys2Proof.Machine

/-- Items 1 to 4 of R21. Item 1 is the type of `xcnt` (log entry 3); it is repeated here in the spec's own form. -/
structure Machine.State.Inv (s : State) : Prop where
  xcnt_le : s.xcnt.val ≤ 4
  exp_lt : s.exp.toNat < 2 ^ (8 * s.xcnt.val)
  vok_means : s.vok = true → s.xcnt = 4 ∧ s.crcOut = s.exp
  checksum_means : s.fault = .checksum → s.xcnt = 4 ∧ s.crcOut ≠ s.exp ∧ s.vok = false

/-- What the host's inputs so far amount to since the last `INIT` or reset: the message bytes and the checksum bytes, in order
(glossary "message"; R21 item 5). -/
structure History where
  message : List Byte
  loaded  : List Byte
  deriving DecidableEq, Repr

/-- Nothing since the last `INIT` or reset. -/
def History.empty : History := ⟨[], []⟩

/-- The history after one more command: `INIT` starts afresh, `UPD` adds a message byte, `LDX` a checksum byte. -/
def History.onInstr (h : History) : Instr → History
  | .nop => h
  | .init => .empty
  | .upd b => { h with message := h.message ++ [b] }
  | .ldx b => { h with loaded := h.loaded ++ [b] }
  | .vfy => h

/-- The history after one more command word; a reserved word adds nothing. -/
def History.onWord (h : History) (w : CmdWord) : History :=
  match decode w with
  | .cmd i => h.onInstr i
  | .reserved _ => h

/-- The history after one more edge, read from the pins alone: reset starts afresh, an idle edge adds nothing. -/
def History.next (h : History) (i : PortInput) : History :=
  match i.edge with
  | .reset => .empty
  | .command w => h.onWord w
  | .idle => h

/-- The history of a list of edges after a reset. -/
def History.ofInputs (l : List PortInput) : History := l.foldl History.next .empty

/-- R21 item 5: while no fault is recorded, `crc` is the register of the message, and `exp` and `xcnt` are as R14 and R15 say
for the checksum bytes. -/
def Machine.State.Tracks (s : State) (h : History) : Prop :=
  s.fault = .none → s.crc = crcRegister h.message ∧ s.exp = loadedValue h.loaded ∧ s.xcnt.val = h.loaded.length

/-- The five registers of R10 agree; only what the host presents later may differ. -/
def Machine.State.sameRegs (s t : State) : Prop :=
  s.crc = t.crc ∧ s.exp = t.exp ∧ s.xcnt = t.xcnt ∧ s.vok = t.vok ∧ s.fault = t.fault

/-- A compute transaction has ended well (R130). -/
def Machine.State.computedWell (s : State) : Prop := s.fault = .none

/-- A verify transaction has ended well (R130); `vok` means something only together with `fault == 0` (R142). -/
def Machine.State.verifiedWell (s : State) : Prop := s.vok = true ∧ s.fault = .none

/-- A run of R130: one reset, then these words, one per edge. -/
def runWords (words : List CmdWord) : Host.Outcome State Fault Refusal :=
  Host.Core.run core words.length { State.reset with port := words.map presentWord }

end Sys2Proof
end

