-- ==== Sys2Proof/Certificates/Slice0/Obligations.lean ====
section
/-! DEFINITION. The statements for the provers. Each docstring names the rule it formalises; the mark in brackets says where the
spec itself calls the sentence derived or general knowledge. -/

open Sys2Proof Sys2Proof.Machine

/-! ## Encoding -/

/-- R53: the decoder on the fields of a word, and the step on a word: unchanged in a faulted state, else the rule of what the
word decodes to, `RESERVED` being `raise ILLEGAL`. -/
def Obligations.DecodeIsTheSpecFunction : Prop :=
  (∀ w : CmdWord, opField w = w.extractLsb' 8 4 ∧ immField w = w.extractLsb' 0 8) ∧
  (∀ w : CmdWord, opField w = 0 → immField w = 0 → decode w = .cmd .nop) ∧
  (∀ w : CmdWord, opField w = 1 → immField w = 0 → decode w = .cmd .init) ∧
  (∀ w : CmdWord, opField w = 2 → decode w = .cmd (.upd (immField w))) ∧
  (∀ w : CmdWord, opField w = 3 → decode w = .cmd (.ldx (immField w))) ∧
  (∀ w : CmdWord, opField w = 4 → immField w = 0 → decode w = .cmd .vfy) ∧
  (∀ w : CmdWord, (opField w = 0 ∨ opField w = 1 ∨ opField w = 4) → immField w ≠ 0 → ∃ why, decode w = .reserved why) ∧
  (∀ w : CmdWord, 5 ≤ (opField w).toNat → ∃ why, decode w = .reserved why) ∧
  (∀ (s : State) (w : CmdWord), s.fault ≠ .none → execWord w s = .next s) ∧
  (∀ (s : State) (w : CmdWord) (i : Instr), decode w = .cmd i → execWord w s = exec i s) ∧
  (∀ (s : State) (w : CmdWord) (why : Reserved), s.fault = .none → decode w = .reserved why →
    execWord w s = .next { s with fault := .illegal })

/-- R52: the five rows with their patterns and masks; they are disjoint, a word decodes to a command exactly when it selects that
command's row, and 515 of the 4096 words select a command, the other 3581 being reserved. -/
def Obligations.OpcodeRowsSelectTheirCommands : Prop :=
  opcodeRows.map (fun r => (r.mnemonic, r.pattern, r.mask)) =
    [("NOP", 0x000#12, 0xFFF#12), ("INIT", 0x100#12, 0xFFF#12), ("UPD", 0x200#12, 0xF00#12), ("LDX", 0x300#12, 0xF00#12),
     ("VFY", 0x400#12, 0xFFF#12)] ∧
  opcodeRows.Pairwise (fun a b => ∀ w : CmdWord, ¬ (a.selects w = true ∧ b.selects w = true)) ∧
  (∀ (w : CmdWord) (i : Instr), decode w = .cmd i → i.row ∈ opcodeRows ∧ i.row.selects w = true) ∧
  (∀ (w : CmdWord) (r : OpcodeRow), r ∈ opcodeRows → r.selects w = true → ∃ i, decode w = .cmd i ∧ i.row = r) ∧
  ((List.range 4096).filter (fun n => (decode (BitVec.ofNat 12 n)).instr?.isSome)).length = 515 ∧
  ((List.range 4096).filter (fun n => reservedWord (BitVec.ofNat 12 n))).length = 3581

/-- R54: a word decodes to no command exactly when it stands in the table of reserved words; executing one while `fault == 0`
raises `ILLEGAL` and changes nothing else; presented while `fault != 0` it is ignored; there are 3581 of them. -/
def Obligations.ReservedWordsRaiseIllegal : Prop :=
  (∀ w : CmdWord, (∃ why, decode w = .reserved why) ↔
    (0x001 ≤ w.toNat ∧ w.toNat ≤ 0x0FF) ∨ (0x101 ≤ w.toNat ∧ w.toNat ≤ 0x1FF) ∨
    (0x401 ≤ w.toNat ∧ w.toNat ≤ 0x4FF) ∨ (0x500 ≤ w.toNat ∧ w.toNat ≤ 0xFFF)) ∧
  (∀ w : CmdWord, reservedWord w = true ↔ ∃ why, decode w = .reserved why) ∧
  (∀ (s : State) (w : CmdWord), reservedWord w = true → s.fault = .none →
    execWord w s = .next { s with fault := .illegal }) ∧
  (∀ (s : State) (w : CmdWord), reservedWord w = true → s.fault ≠ .none → execWord w s = .next s) ∧
  ((List.range 4096).filter (fun n => reservedWord (BitVec.ofNat 12 n))).length = 3581 ∧
  (∀ (s : State) (w : CmdWord), ∃ t, execWord w s = .next t)

/-- Decoding and encoding agree in both directions, for every command and every operand (R52, R53): the words that decode to a
command are exactly its encoding. -/
def Obligations.DecodeEncodeInverse : Prop :=
  ∀ (w : CmdWord) (i : Instr), decode w = .cmd i ↔ encode i = w

/-- Some words written out from R52's patterns decode to the commands they stand for (V6 of 95_test_vectors.md). -/
def Obligations.PatternWordsDecode : Prop :=
  decode 0b000000000000#12 = .cmd .nop ∧
  decode 0b000100000000#12 = .cmd .init ∧
  decode 0b001001110100#12 = .cmd (.upd 0x74#8) ∧
  decode 0b001110101110#12 = .cmd (.ldx 0xAE#8) ∧
  decode 0b010000000000#12 = .cmd .vfy ∧
  decode 0b010000000001#12 = .reserved (.operandNotZero 4#4 1#8) ∧
  decode 0b010110101011#12 = .reserved (.unusedOpcode 5#4 0xAB#8)

/-! ## The edge and the step -/

/-- R19, R57: at an edge `rst` wins and gives the reset state whatever `cmd_valid` and `cmd` are; else a valid command word is
executed; else the state is unchanged and the value on `cmd` is ignored; `cmd_ready` is always 1. -/
def Obligations.ClockEdgeContract : Prop :=
  (∀ (s : State) (i : PortInput) (rest : List PortInput), s.port = i :: rest → i.rst = true →
    step s = .next { State.reset with port := rest }) ∧
  (∀ (s : State) (i : PortInput) (rest : List PortInput), s.port = i :: rest → i.rst = false → i.cmdValid = true →
    step s = execWord i.cmd { s with port := rest }) ∧
  (∀ (s : State) (i : PortInput) (rest : List PortInput), s.port = i :: rest → i.rst = false → i.cmdValid = false →
    step s = .next { s with port := rest }) ∧
  (∀ s : State, s.outputs.cmdReady = 1)

/-- The model's reading of an empty list (log entry 2): the host presents nothing, and a step changes nothing, as at an edge with
`cmd_valid == 0` and `rst == 0`. -/
def Obligations.NothingPresentedIsAnIdleEdge : Prop :=
  ∀ (s : State) (w : CmdWord), s.port = [] →
    step s = .next s ∧ step { s with port := [⟨false, false, w⟩] } = .next s

/-- A step runs the decoded command: when the word presented at the next edge decodes to `i`, the step is `exec i` on the state
with that edge taken off the host's list (R19, R53). That the host's edges stand in State as the list `port` is the model's choice
(log entry 1). The second clause says the same through `withFetchWord` and `decodeTableWord`; it rests on the model's choices that
`withFetchWord` presents one valid word in front of the list (log entry 1) and that a table word of 16 bits stands for its low 12
bits and is refused where a higher one is set (log entry 11). -/
def Obligations.StepRunsTheDecodedCommand : Prop :=
  (∀ (s : State) (w : CmdWord) (i : Instr) (rest : List PortInput), s.port = presentWord w :: rest → decode w = .cmd i →
    step s = exec i { s with port := rest }) ∧
  (∀ (s : State) (nbits w : Nat) (i : Instr), decodeTableWord nbits w = some i → step (s.withFetchWord nbits w) = exec i s)

/-- R54, R175: every word has a defined effect in every state, so every step answers a next state; no step stops the machine.
(The model's choice of the stop types: log entry 5.) -/
def Obligations.EveryStepAnswersANextState : Prop :=
  (∀ s : State, ∃ t, step s = .next t) ∧ (∀ (i : Instr) (s : State), ∃ t, exec i s = .next t)

/-- R38: what a run of `n` edges makes of the registers depends on the registers it starts from and on those `n` edges alone,
not on what the host presents later. -/
def Obligations.RegistersDependOnPresentedEdgesOnly : Prop :=
  ∀ (n : Nat) (s s' t t' : State), s.sameRegs s' → s.port.take n = s'.port.take n →
    Host.Core.run Sys2Proof.core n s = .next t → Host.Core.run Sys2Proof.core n s' = .next t' → t.sameRegs t'

/-! ## Reset -/

/-- R22: the reset values; `crc_out` is then 0, the checksum of the empty message; the block is ready to absorb without an
`INIT`; and reset is the only way to leave a faulted state. -/
def Obligations.ResetStateIsAsSpecified : Prop :=
  State.reset.crc = 0xFFFFFFFF#32 ∧ State.reset.exp = 0x00000000#32 ∧ State.reset.xcnt = 0 ∧ State.reset.vok = false ∧
  State.reset.fault = .none ∧ State.reset.crcOut = 0x00000000#32 ∧ State.reset.crcOut = crc32 [] ∧
  (∀ b : Byte, ∃ t, exec (.upd b) State.reset = .next t ∧ t.fault = .none ∧ t.crcOut = crc32 [b]) ∧
  (∀ s t : State, s.fault ≠ .none → step s = .next t → t.fault = .none → ∃ i rest, s.port = i :: rest ∧ i.rst = true)

/-- R170: an edge with `rst == 1` gives all five registers their reset values from any state, whatever is on `cmd_valid` and
`cmd`; the command at that edge is lost; two resets equal one; only reset clears `fault`; `INIT` gives the same values to the
other four but does not touch `fault` and is ignored when faulted. -/
def Obligations.ResetEdgeFromAnyState : Prop :=
  (∀ (s : State) (cmdValid : Bool) (w : CmdWord) (rest : List PortInput), s.port = ⟨true, cmdValid, w⟩ :: rest →
    step s = .next { State.reset with port := rest }) ∧
  (∀ (s : State) (i j : PortInput) (rest : List PortInput), i.rst = true → j.rst = true → s.port = i :: j :: rest →
    Host.Core.run Sys2Proof.core 2 s = step { s with port := j :: rest }) ∧
  (∀ s t : State, s.fault ≠ .none → step s = .next t → t.fault = .none → ∃ i rest, s.port = i :: rest ∧ i.rst = true) ∧
  (∀ s : State, s.fault = .none → exec .init s = .next { State.reset with port := s.port }) ∧
  (∀ s : State, s.fault ≠ .none → exec .init s = .next s)

/-! ## The commands -/

/-- R100: `NOP` writes no register, in every state; only the word `0x000` is `NOP`, and `0x001` to `0x0FF` raise `ILLEGAL`; it
has the same effect as an edge with `cmd_valid == 0`. -/
def Obligations.NopChangesNothing : Prop :=
  (∀ s : State, exec .nop s = .next s) ∧
  encode .nop = 0x000#12 ∧
  (∀ w : CmdWord, decode w = .cmd .nop ↔ w = 0x000#12) ∧
  (∀ (s : State) (w : CmdWord), 0x001 ≤ w.toNat → w.toNat ≤ 0x0FF → s.fault = .none →
    execWord w s = .next { s with fault := .illegal }) ∧
  (∀ (s : State) (w : CmdWord) (rest : List PortInput),
    step { s with port := ⟨false, false, w⟩ :: rest } = step { s with port := presentWord (encode .nop) :: rest })

/-- R101: `INIT` in an unfaulted state writes `crc`, `exp`, `xcnt`, `vok` and not `fault`; the state then equals the reset
state; `crc_out` becomes 0; in a faulted state it does nothing; twice in a row equals once; after reset it changes nothing;
`0x101` to `0x1FF` raise `ILLEGAL`. -/
def Obligations.InitStartsANewMessage : Prop :=
  (∀ s : State, s.fault = .none →
    exec .init s = .next { s with crc := 0xFFFFFFFF#32, exp := 0x00000000#32, xcnt := 0, vok := false }) ∧
  (∀ s : State, s.fault = .none → exec .init s = .next { State.reset with port := s.port }) ∧
  (∀ s t : State, s.fault = .none → exec .init s = .next t → t.crcOut = 0x00000000#32) ∧
  (∀ s : State, s.fault ≠ .none → exec .init s = .next s) ∧
  (∀ s t : State, exec .init s = .next t → exec .init t = .next t) ∧
  exec .init State.reset = .next State.reset ∧
  encode .init = 0x100#12 ∧
  (∀ (s : State) (w : CmdWord), 0x101 ≤ w.toNat → w.toNat ≤ 0x1FF → s.fault = .none →
    execWord w s = .next { s with fault := .illegal })

/-- R102: `UPD b` in an unfaulted state, for every `b` and whatever `xcnt` is, writes `crc <- bytestep(crc, b)` and `vok <- 0`
and nothing else; afterwards `crc_out` is the checksum of the message with `b` at its end; a zero byte changes `crc` unless
`crc == 0`; in a faulted state it does nothing. -/
def Obligations.UpdAbsorbsAByte : Prop :=
  (∀ (s : State) (b : Byte), s.fault = .none →
    exec (.upd b) s = .next { s with crc := bytestep s.crc b, vok := false }) ∧
  (∀ (s t : State) (b : Byte) (m : List Byte), s.fault = .none → s.crc = crcRegister m → exec (.upd b) s = .next t →
    t.crcOut = crc32 (m ++ [b])) ∧
  (∀ s t : State, s.fault = .none → exec (.upd 0x00#8) s = .next t → (t.crc = s.crc ↔ s.crc = 0)) ∧
  (∀ (s : State) (b : Byte), s.fault ≠ .none → exec (.upd b) s = .next s) ∧
  (∀ b : Byte, encode (.upd b) = 0x200#12 ||| b.setWidth 12)

/-- R110: `LDX b` with `xcnt != 4` shifts `b` into `exp` and counts it and writes nothing else; with `xcnt == 4` it raises
`PROTOCOL` and keeps `exp` and `xcnt`; in a faulted state it does nothing; four accepted bytes after an `INIT` stand in `exp`
most significant first; where R21 holds, an accepted byte finds `exp < 2^24` and `vok == 0`. -/
def Obligations.LdxLoadsAChecksumByte : Prop :=
  (∀ (s : State) (b : Byte), s.fault = .none → s.xcnt ≠ 4 →
    exec (.ldx b) s = .next { s with exp := (s.exp <<< 8) ||| b.setWidth 32, xcnt := s.xcnt + 1 } ∧
    (s.xcnt + 1).val = s.xcnt.val + 1) ∧
  (∀ (s : State) (b : Byte), s.fault = .none → s.xcnt = 4 → exec (.ldx b) s = .next { s with fault := .protocol }) ∧
  (∀ (s : State) (b : Byte), s.fault ≠ .none → exec (.ldx b) s = .next s) ∧
  (∀ b : Byte, encode (.ldx b) = 0x300#12 ||| b.setWidth 12) ∧
  (∀ (s s0 : State) (b0 b1 b2 b3 : Byte), s.fault = .none → exec .init s = .next s0 →
    ∃ s1 s2 s3 s4, exec (.ldx b0) s0 = .next s1 ∧ exec (.ldx b1) s1 = .next s2 ∧ exec (.ldx b2) s2 = .next s3 ∧
      exec (.ldx b3) s3 = .next s4 ∧ s4.exp = b0 ++ b1 ++ b2 ++ b3 ∧ s4.xcnt = 4 ∧ s4.fault = .none) ∧
  (∀ s : State, s.Inv → s.xcnt ≠ 4 → s.exp.toNat < 2 ^ 24 ∧ s.vok = false)

/-- R111: `VFY` with `xcnt != 4` raises `PROTOCOL` without comparing; with `xcnt == 4` it writes `vok <- 1` when all 32 bits of
`crc xor 0xFFFFFFFF` and `exp` agree and raises `CHECKSUM` when they do not; it writes nothing else; in a faulted state it does
nothing; repeated after a match it leaves the state; on the empty message with four zero bytes it matches; `0x401` to `0x4FF`
raise `ILLEGAL`. -/
def Obligations.VfyComparesTheChecksum : Prop :=
  (∀ s : State, s.fault = .none → s.xcnt ≠ 4 → exec .vfy s = .next { s with fault := .protocol }) ∧
  (∀ s : State, s.fault = .none → s.xcnt = 4 → s.crc ^^^ 0xFFFFFFFF#32 = s.exp → exec .vfy s = .next { s with vok := true }) ∧
  (∀ s : State, s.fault = .none → s.xcnt = 4 → s.crc ^^^ 0xFFFFFFFF#32 ≠ s.exp →
    exec .vfy s = .next { s with fault := .checksum }) ∧
  (∀ s : State, s.fault ≠ .none → exec .vfy s = .next s) ∧
  (∀ s t : State, exec .vfy s = .next t → t.fault = .none → exec .vfy t = .next t) ∧
  exec .vfy { State.reset with xcnt := 4 } = .next { State.reset with xcnt := 4, vok := true } ∧
  encode .vfy = 0x400#12 ∧
  (∀ (s : State) (w : CmdWord), 0x401 ≤ w.toNat → w.toNat ≤ 0x4FF → s.fault = .none →
    execWord w s = .next { s with fault := .illegal })

/-- The frame of every command: `NOP`, `INIT`, `UPD`, `LDX`, `VFY` write only the registers of the column "written by" of R10,
and none of them touches what the host presents later. -/
def Obligations.CommandsWriteOnlyTheirRegisters : Prop :=
  ∀ (i : Instr) (s t : State), exec i s = .next t →
    t.port = s.port ∧
    ((∀ b, i ≠ .upd b) → i ≠ .init → t.crc = s.crc) ∧
    ((∀ b, i ≠ .ldx b) → i ≠ .init → t.exp = s.exp ∧ t.xcnt = s.xcnt) ∧
    ((∀ b, i ≠ .upd b) → i ≠ .init → i ≠ .vfy → t.vok = s.vok) ∧
    ((∀ b, i ≠ .ldx b) → i ≠ .vfy → t.fault = s.fault)

/-- R35: `NOP`, `INIT` and a successful `VFY` are idempotent; `UPD b` twice absorbs `b` twice and `LDX b` twice loads two bytes.
[derived, in the spec's own mark] -/
def Obligations.NopInitVfyAreIdempotent : Prop :=
  (∀ s t : State, exec .nop s = .next t → exec .nop t = .next t) ∧
  (∀ s t : State, exec .init s = .next t → exec .init t = .next t) ∧
  (∀ s t : State, exec .vfy s = .next t → t.vok = true → t.fault = .none → exec .vfy t = .next t) ∧
  (∀ (s t u : State) (b : Byte) (m : List Byte), s.fault = .none → s.crc = crcRegister m → exec (.upd b) s = .next t →
    exec (.upd b) t = .next u → u.crc = crcRegister (m ++ [b, b])) ∧
  (∀ (s t u : State) (b : Byte), s.fault = .none → s.xcnt.val ≤ 2 → exec (.ldx b) s = .next t →
    exec (.ldx b) t = .next u → u.xcnt.val = s.xcnt.val + 2)

/-! ## Flags and outputs -/

/-- R16: `VFY` writes 1 to `vok` when `xcnt == 4` and `crc_out == exp`, and nothing else makes it 1; `INIT`, `UPD` and reset write
0; every other command, a faulting `VFY` among them, leaves it; it is 0 when the fault is `CHECKSUM` (where R21 item 3 holds). -/
def Obligations.VokRisesOnlyOnAMatch : Prop :=
  (∀ s t : State, step s = .next t → s.vok = false → t.vok = true →
    s.fault = .none ∧ s.xcnt = 4 ∧ s.crcOut = s.exp ∧
    ∃ i rest, s.port = i :: rest ∧ i.rst = false ∧ i.cmdValid = true ∧ decode i.cmd = .cmd .vfy) ∧
  (∀ s : State, s.fault = .none → s.xcnt = 4 → s.crcOut = s.exp → exec .vfy s = .next { s with vok := true }) ∧
  (∀ s t : State, s.fault = .none → exec .init s = .next t → t.vok = false) ∧
  (∀ (s t : State) (b : Byte), s.fault = .none → exec (.upd b) s = .next t → t.vok = false) ∧
  (∀ (s t : State) (i : PortInput) (rest : List PortInput), s.port = i :: rest → i.rst = true → step s = .next t →
    t.vok = false) ∧
  (∀ (s t : State) (b : Byte), exec (.ldx b) s = .next t → t.vok = s.vok) ∧
  (∀ s t : State, exec .nop s = .next t → t.vok = s.vok) ∧
  (∀ s t : State, exec .vfy s = .next t → t.fault ≠ .none → t.vok = s.vok) ∧
  (∀ s t : State, s.Inv → exec .vfy s = .next t → t.fault = .checksum → t.vok = false)

/-- R18: each output is the stated function of the registers, `xcnt` shows 0 to 4, `cmd_ready` is constant 1, and the four codes of
`fault` are 0 none, 1 `CHECKSUM`, 2 `PROTOCOL`, 3 `ILLEGAL`. -/
def Obligations.OutputsShowTheRegisters : Prop :=
  (∀ s : State, s.outputs.crcOut = s.crc ^^^ 0xFFFFFFFF#32 ∧ s.outputs.xcnt.toNat = s.xcnt.val ∧ s.outputs.xcnt.toNat ≤ 4 ∧
    (s.outputs.vok = 1#1 ↔ s.vok = true) ∧ (s.outputs.vok = 0#1 ↔ s.vok = false) ∧ s.outputs.cmdReady = 1#1) ∧
  (∀ s : State, (s.outputs.fault = 0#2 ↔ s.fault = .none) ∧ (s.outputs.fault = 1#2 ↔ s.fault = .checksum) ∧
    (s.outputs.fault = 2#2 ↔ s.fault = .protocol) ∧ (s.outputs.fault = 3#2 ↔ s.fault = .illegal))

/-! ## Faults -/

/-- R140: which fault a word executed in an unfaulted state raises, and exactly when: `CHECKSUM` by `VFY` with `xcnt == 4` on a
mismatch, `PROTOCOL` by `LDX` with `xcnt == 4` or by `VFY` with `xcnt != 4`, `ILLEGAL` by a reserved word; these are all; a fault records
its code in `fault` and nothing else; none is raised in a faulted state. -/
def Obligations.FaultCausesAreExactlyThese : Prop :=
  (∀ (s t : State) (w : CmdWord), s.fault = .none → execWord w s = .next t →
    (t.fault = .checksum ↔ decode w = .cmd .vfy ∧ s.xcnt = 4 ∧ s.crc ^^^ 0xFFFFFFFF#32 ≠ s.exp) ∧
    (t.fault = .protocol ↔ ((∃ b, decode w = .cmd (.ldx b)) ∧ s.xcnt = 4) ∨ (decode w = .cmd .vfy ∧ s.xcnt ≠ 4)) ∧
    (t.fault = .illegal ↔ ∃ why, decode w = .reserved why) ∧
    (t.fault ≠ .none → t = { s with fault := t.fault })) ∧
  (∀ (s t : State) (w : CmdWord), s.fault ≠ .none → execWord w s = .next t → t.fault = s.fault) ∧
  Cause.code .none = 0#2 ∧ Cause.code .checksum = 1#2 ∧ Cause.code .protocol = 2#2 ∧ Cause.code .illegal = 3#2

/-- R141: a step that raises a fault records its cause and leaves `crc`, `exp`, `xcnt`, `vok` as they were before it (R21 item 6);
the edge is taken off the host's list, and the code shows on the output. -/
def Obligations.FaultsArePrecise : Prop :=
  (∀ s t : State, step s = .next t → s.fault = .none → t.fault ≠ .none →
    t.crc = s.crc ∧ t.exp = s.exp ∧ t.xcnt = s.xcnt ∧ t.vok = s.vok ∧ t.port = s.port.tail ∧
    t.outputs.fault = t.fault.code ∧ t.outputs.fault ≠ 0#2) ∧
  (∀ (c : Cause) (s : State), raiseFault c s = { s with fault := c })

/-- R142: while `fault != 0` every word is ignored and every edge without reset is consumed and changes no register and no output,
for any number of edges, so the first cause is kept until a reset; only reset leaves the faulted state; in an unfaulted state a word
has the rule of its command, or raises `ILLEGAL`; and `vok` may be frozen at 1. -/
def Obligations.FaultedIsFrozenUntilReset : Prop :=
  (∀ (s : State) (w : CmdWord), s.fault ≠ .none → execWord w s = .next s) ∧
  (∀ (n : Nat) (s t : State), s.fault ≠ .none → (∀ i ∈ s.port.take n, i.rst = false) →
    Host.Core.run Sys2Proof.core n s = .next t → t = { s with port := s.port.drop n } ∧ t.outputs = s.outputs) ∧
  (∀ s t : State, s.fault ≠ .none → step s = .next t → t.fault = .none → ∃ i rest, s.port = i :: rest ∧ i.rst = true) ∧
  (∀ (s : State) (w : CmdWord) (i : Instr), s.fault = .none → decode w = .cmd i → execWord w s = exec i s) ∧
  (∀ (s : State) (w : CmdWord) (why : Reserved), s.fault = .none → decode w = .reserved why →
    execWord w s = .next { s with fault := .illegal }) ∧
  (∃ (s t : State) (w : CmdWord), s.Inv ∧ s.fault = .none ∧ s.vok = true ∧ execWord w s = .next t ∧ t.fault = .illegal ∧
    t.vok = true) ∧
  (∃ (s t : State) (w : CmdWord), s.Inv ∧ s.fault = .none ∧ s.vok = true ∧ execWord w s = .next t ∧ t.fault = .protocol ∧
    t.vok = true)

/-! ## Invariants -/

/-- R21 items 1 to 4: every step keeps them, from every state that meets them. [derived, in the spec's own mark] -/
def Obligations.StepKeepsTheRegisterInvariant : Prop :=
  ∀ s t : State, s.Inv → step s = .next t → t.Inv

/-- The reset state meets the invariant of R21, whatever the host presents later. -/
def Obligations.ResetMeetsTheRegisterInvariant : Prop :=
  ∀ l : List PortInput, State.Inv { State.reset with port := l }

/-- R21 item 5 as a step: if the registers track the history of the inputs, they track it after one more edge. [derived, in the
spec's own mark] -/
def Obligations.StepKeepsTrackOfTheHistory : Prop :=
  ∀ (s t : State) (h : History), s.Tracks h → step s = .next t → t.Tracks (h.next (takeInput s).1)

/-- The reset state tracks the empty history. -/
def Obligations.ResetTracksTheEmptyHistory : Prop :=
  ∀ l : List PortInput, State.Tracks { State.reset with port := l } .empty

/-- R21 item 5, R18: from reset, after any list of edges, if no fault is recorded, `crc_out` is the checksum of the bytes absorbed
since the last `INIT` or reset and `exp` and `xcnt` are as the `LDX` bytes since then say. [derived, in the spec's own mark] -/
def Obligations.CrcOutIsTheChecksumOfTheMessage : Prop :=
  ∀ (l : List PortInput) (t : State),
    Host.Core.run Sys2Proof.core l.length { State.reset with port := l } = .next t → t.fault = .none →
    t.crc = crcRegister (History.ofInputs l).message ∧ t.crcOut = crc32 (History.ofInputs l).message ∧
    t.exp = loadedValue (History.ofInputs l).loaded ∧ t.xcnt.val = (History.ofInputs l).loaded.length ∧ t.port = []

/-- R14: `k` accepted `LDX` (`k` from 0 to 4) after `INIT` make `exp` the big-endian number of those bytes, below `2^(8k)`, count
`k`, and write neither `crc` nor `vok`. -/
def Obligations.ExpIsTheBigEndianNumber : Prop :=
  ∀ (s : State) (bytes : List Byte) (rest : List PortInput), s.fault = .none → s.xcnt = 0 → s.exp = 0 → bytes.length ≤ 4 →
    s.port = presentInstrs (bytes.map .ldx) ++ rest →
    ∃ t, Host.Core.run Sys2Proof.core bytes.length s = .next t ∧
      t.exp.toNat = bytes.foldl (fun n b => 256 * n + b.toNat) 0 ∧ t.exp.toNat < 2 ^ (8 * bytes.length) ∧
      t.xcnt.val = bytes.length ∧ t.crc = s.crc ∧ t.vok = s.vok ∧ t.fault = .none ∧ t.port = rest

/-! ## The CRC-32 function -/

/-- R70: the constant's bits are the coefficients of the generator, and the reflected constant is its bit reversal. [the
coefficients are general knowledge, in the spec's own mark] -/
def Obligations.GeneratorConstants : Prop :=
  (∀ k : Fin 32, polyNormal.getLsbD k.val = true ↔ k.val ∈ [26, 23, 22, 16, 12, 11, 10, 8, 7, 5, 4, 2, 1, 0]) ∧
  polyReflected = polyNormal.reverse

/-- R71: the two forms of the one-bit step, and `shift1` is linear over exclusive-or. [derived, in the spec's own mark] -/
def Obligations.ShiftIsLinear : Prop :=
  (∀ r : Word, shift1 r = (r >>> 1) ^^^ (if r.getLsbD 0 then 0xEDB88320#32 else 0#32)) ∧
  (∀ (r : Word) (d : Bool), bitstep r d = (r >>> 1) ^^^ (if (r.getLsbD 0).xor d then 0xEDB88320#32 else 0#32)) ∧
  (∀ a b : Word, shift1 (a ^^^ b) = shift1 a ^^^ shift1 b) ∧
  shift1 0 = 0

/-- R76 (R72, R73, R74): the serial, the normative and the table form of the byte step agree, so the checksum may be computed with
any of them. [derived, in the spec's own mark] -/
def Obligations.ByteStepFormsAgree : Prop :=
  (∀ (r : Word) (b : Byte), bytestepSerial r b = bytestep r b) ∧
  (∀ (r : Word) (b : Byte), bytestepTable r b = bytestep r b) ∧
  (∀ m : List Byte, crc32 m = m.foldl bytestepSerial crcInit ^^^ crcXorOut) ∧
  (∀ m : List Byte, crc32 m = (messageBits m).foldl bitstep crcInit ^^^ crcXorOut) ∧
  (∀ m : List Byte, crc32 m = m.foldl bytestepTable crcInit ^^^ crcXorOut)

/-- R74: entry `i` of the table is eight shifts of `zext_32(i)`, equivalently `bytestep(0, i)`, and the 256 entries are the printed
ones. -/
def Obligations.TableIsAsPrinted : Prop :=
  printedTable.length = 256 ∧
  ∀ i : Byte, crcTable i = bytestep 0 i ∧
    crcTable i = shift1 (shift1 (shift1 (shift1 (shift1 (shift1 (shift1 (shift1 (i.setWidth 32)))))))) ∧
    printedTable[i.toNat]? = some (crcTable i)

/-- R82: `shift1` is a bijection with inverse `unshift1` and shows the lost bit in bit 31; `bytestep` is a bijection in `r` with the
stated inverse and injective in `b`; the table's entries and their top bytes are pairwise different. [derived, in the spec's own
mark] -/
def Obligations.ByteStepIsInvertible : Prop :=
  (∀ r : Word, (shift1 r).getLsbD 31 = r.getLsbD 0) ∧
  (∀ r : Word, unshift1 (shift1 r) = r) ∧ (∀ r : Word, shift1 (unshift1 r) = r) ∧
  (∀ (r : Word) (b : Byte), unbytestep (bytestep r b) b = r) ∧ (∀ (r : Word) (b : Byte), bytestep (unbytestep r b) b = r) ∧
  (∀ (r : Word) (b b' : Byte), bytestep r b = bytestep r b' → b = b') ∧
  (∀ i j : Byte, (crcTable i).extractLsb' 24 8 = (crcTable j).extractLsb' 24 8 → i = j)

/-- R79: the register after `a ++ b` is the register after `a` carried through `b`, so absorbing `b` with `UPD` commands in a state
whose register is that of `a` shows `crc32(a ++ b)`, and after `k` of them the checksum of `a` and the first `k` bytes. [derived, in
the spec's own mark] -/
def Obligations.AbsorbingIsIncremental : Prop :=
  (∀ a b : List Byte, crcRegister (a ++ b) = b.foldl bytestep (crcRegister a)) ∧
  (∀ (s : State) (a b : List Byte) (rest : List PortInput) (k : Nat), s.fault = .none → s.crc = crcRegister a → k ≤ b.length →
    s.port = presentInstrs (b.map .upd) ++ rest →
    ∃ t, Host.Core.run Sys2Proof.core k s = .next t ∧ t.fault = .none ∧ t.crcOut = crc32 (a ++ b.take k) ∧
      t.exp = s.exp ∧ t.xcnt = s.xcnt)

/-- R80: the affine law, and `crc32` is not linear, since the checksum of four zero bytes is not zero. [derived, in the spec's own
mark] R80's remark that `crc32(z_n)` is not zero for EVERY `n >= 1` is not claimed: it does not follow and does not hold, see the next
statement and log entry 12. -/
def Obligations.ChecksumIsAffine : Prop :=
  (∀ a b c : List Byte, a.length = b.length → b.length = c.length →
    crc32 (List.zipWith (· ^^^ ·) (List.zipWith (· ^^^ ·) a b) c) = crc32 a ^^^ crc32 b ^^^ crc32 c) ∧
  (∀ a b : List Byte, a.length = b.length →
    crc32 (List.zipWith (· ^^^ ·) a b) = crc32 a ^^^ crc32 b ^^^ crc32 (List.replicate a.length 0)) ∧
  crc32 (List.replicate 4 0) = 0x2144DF1C#32

/-- Against the remark in R80: since the zero-byte step is a bijection of a finite set (R82), some non-empty all-zero message has
checksum zero. (Log entry 12.) -/
def Obligations.SomeAllZeroMessageHasChecksumZero : Prop :=
  ∃ n : Nat, 1 ≤ n ∧ crc32 (List.replicate n 0) = 0

/-- R81 item 1: two messages of the same length that differ in exactly one byte have different checksums. [derived, in the spec's own
mark; the certain form, 90_conflicts.md C1] -/
def Obligations.OneChangedByteIsCaught : Prop :=
  ∀ (before after : List Byte) (b b' : Byte), b ≠ b' → crc32 (before ++ b :: after) ≠ crc32 (before ++ b' :: after)

/-- R81 item 2: two different messages of the same length whose differing bits all lie within 32 consecutive positions of the stream
order have different checksums. [derived, in the spec's own mark] -/
def Obligations.BurstsOfThirtyTwoBitsAreCaught : Prop :=
  ∀ (m m' : List Byte) (k : Nat), m.length = m'.length → m ≠ m' →
    (∀ j, j < k ∨ k + 32 ≤ j → (messageBits m)[j]? = (messageBits m')[j]?) → crc32 m ≠ crc32 m'

/-- R81 item 3: two collisions. -/
def Obligations.WiderChangesCanCollide : Prop :=
  crc32 [0x74, 0x65, 0x58, 0x74, 0x68, 0x65, 0x6C, 0x6C, 0x6F] = 0xA3F69134#32 ∧
  crc32 [0x74, 0x65, 0x58, 0x74, 0x6C, 0x7C, 0xA8, 0x01, 0x68] = 0xA3F69134#32 ∧
  crc32 (List.replicate 8 0) = 0x6522DF69#32 ∧
  crc32 [0x00, 0x00, 0x00, 0x80, 0x20, 0x83, 0xB8, 0xED] = 0x6522DF69#32

/-- R83 items 1, 2, 3, 5 (and the first sentence of item 4), and the check value of R75: the checksums and registers the rule
prints; an `INIT` and a reset give the register and the checksum of the empty message. [by evaluation, in the spec's own mark] -/
def Obligations.ParticularChecksums : Prop :=
  (∀ p ∈ particularChecksums, crc32 p.1 = p.2) ∧
  (∀ p ∈ particularRegisters, crcRegister p.1 = p.2) ∧
  crc32 [] = 0x00000000#32 ∧ crcRegister [] = 0xFFFFFFFF#32 ∧
  State.reset.crc = crcRegister [] ∧ State.reset.crcOut = crc32 [] ∧
  (∀ s : State, s.fault = .none → ∃ t, exec .init s = .next t ∧ t.crc = crcRegister [] ∧ t.crcOut = crc32 []) ∧
  crc32 [0x00] = 0xD202EF8D#32 ∧ crc32 [0xFF] = 0xFF000000#32 ∧ crcRegister [0xFF] = 0x00FFFFFF#32 ∧
  crc32 [0x01] = 0xA505DF1B#32 ∧ crc32 [0x80] = 0x3FBA6CAD#32 ∧ crc32 [0x61] = 0xE8B7BE43#32 ∧
  crc32 [0x00, 0x00, 0x00, 0x00] = 0x2144DF1C#32 ∧ crcRegister [0x00, 0x00, 0x00, 0x00] = 0xDEBB20E3#32 ∧
  crc32 [0xFF, 0xFF, 0xFF, 0xFF] = 0xFFFFFFFF#32 ∧ crcRegister [0xFF, 0xFF, 0xFF, 0xFF] = 0x00000000#32 ∧
  crc32 [0x49, 0x45, 0x4E, 0x44] = 0xAE426082#32 ∧
  crc32 [0x31, 0x32, 0x33, 0x34, 0x35, 0x36, 0x37, 0x38, 0x39] = 0xCBF43926#32

/-- R83 item 4: four bytes `FF` followed by any number of zero bytes leave the register zero and have checksum `0xFFFFFFFF`; a zero
byte leaves the zero register zero, by entry 0 of the table; and zero is the only register value a zero byte leaves unchanged, in
the function and in an `UPD 0x00`. [derived, in the spec's own mark] -/
def Obligations.ZeroIsTheOnlyFixedPointOfAZeroByte : Prop :=
  (∀ n : Nat, crcRegister (onesThenZeros n) = 0x00000000#32 ∧ crc32 (onesThenZeros n) = 0xFFFFFFFF#32) ∧
  (∀ n : Nat, crc32 ([0xFF, 0xFF, 0xFF, 0xFF] ++ List.replicate n 0x00) = 0xFFFFFFFF#32) ∧
  (bytestep 0 0x00 = crcTable 0 ∧ crcTable 0 = 0) ∧
  (∀ r : Word, bytestep r 0x00 = r ↔ r = 0) ∧
  (∀ r : Word, zeroByteFixes r = true ↔ r = 0) ∧
  (∀ s : State, s.fault = .none → ∃ t, exec (.upd 0x00) s = .next t ∧ (t.crc = s.crc ↔ s.crc = 0))

/-- R84: a message followed by its own checksum least significant byte first leaves the register at `0xDEBB20E3`; in wire order no
constant is left, so the block does not verify that way. [general knowledge, in the spec's own mark] -/
def Obligations.ResidueOfTheReversedChecksum : Prop :=
  (∀ m : List Byte, crcRegister (m ++ le4 (crc32 m)) = 0xDEBB20E3#32) ∧
  crcRegister ([0x31, 0x32, 0x33, 0x34, 0x35, 0x36, 0x37, 0x38, 0x39] ++ [0xCB, 0xF4, 0x39, 0x26]) = 0xC3368BD3#32 ∧
  (∃ m m' : List Byte, crcRegister (m ++ be4 (crc32 m)) ≠ crcRegister (m' ++ be4 (crc32 m')))

/-- R77: the register is the remainder of polynomial division. With the bits of the message in stream order, first bit at the highest
power, `D`, and `I = x^31 + ... + 1`, bit `31 - k` of the register is the coefficient of `x^k` of `(D x^32 + I x^L) mod G`. [general
knowledge, in the spec's own mark] -/
def Obligations.RegisterIsThePolynomialRemainder : Prop :=
  ∀ (m : List Byte) (G I D : Polynomial (ZMod 2)),
    G = Polynomial.X ^ 32 + Polynomial.X ^ 26 + Polynomial.X ^ 23 + Polynomial.X ^ 22 + Polynomial.X ^ 16 + Polynomial.X ^ 12 +
      Polynomial.X ^ 11 + Polynomial.X ^ 10 + Polynomial.X ^ 8 + Polynomial.X ^ 7 + Polynomial.X ^ 5 + Polynomial.X ^ 4 +
      Polynomial.X ^ 2 + Polynomial.X + 1 →
    I = (Finset.range 32).sum (fun k => Polynomial.X ^ k) →
    D = (Finset.range (8 * m.length)).sum
      (fun i => if (messageBits m).getD i false then Polynomial.X ^ (8 * m.length - 1 - i) else 0) →
    ∀ k, k < 32 → ((crcRegister m).getLsbD (31 - k) = true ↔
      ((D * Polynomial.X ^ 32 + I * Polynomial.X ^ (8 * m.length)) %ₘ G).coeff k = 1)

/-! ## Byte order and transactions -/

/-- R32: `be4(v)` is the four bytes of `v`, most significant first; four `LDX` of these bytes rebuild `v`, so that `exp` is the number
whose `be4` is the bytes on the wire; the frame a host emits ends with `be4(crc_out)`. -/
def Obligations.ChecksumTravelsBigEndian : Prop :=
  (∀ v : Word, be4 v = [v.extractLsb' 24 8, v.extractLsb' 16 8, v.extractLsb' 8 8, v.extractLsb' 0 8]) ∧
  (∀ b0 b1 b2 b3 : Byte, be4 (b0 ++ b1 ++ b2 ++ b3) = [b0, b1, b2, b3] ∧ loadedValue [b0, b1, b2, b3] = b0 ++ b1 ++ b2 ++ b3) ∧
  (∀ v : Word, loadedValue (be4 v) = v) ∧
  (∀ c : List Byte, c.length = 4 → be4 (loadedValue c) = c) ∧
  (∀ (t p : List Byte) (v : Word), chunkFrame t p v = be4 (BitVec.ofNat 32 p.length) ++ t ++ p ++ be4 v) ∧
  be4 0xA3F69134#32 = [0xA3, 0xF6, 0x91, 0x34]

/-- R120: a compute transaction from any unfaulted state takes `5 + n` commands, never faults, and leaves `xcnt == 0`, `vok == 0` and
`crc_out == crc32(t ++ p)`; after the `init` and `k` of its `upd` the output is the checksum of the first `k` bytes. -/
def Obligations.ComputeTransactionGivesTheChecksum : Prop :=
  ∀ (s : State) (t p : List Byte) (rest : List PortInput), s.fault = .none → t.length = 4 →
    s.port = presentInstrs (computeTransaction t p) ++ rest →
    (∃ u, Host.Core.run Sys2Proof.core (5 + p.length) s = .next u ∧ u.fault = .none ∧ u.xcnt = 0 ∧ u.vok = false ∧
      u.crcOut = crc32 (t ++ p) ∧ u.port = rest) ∧
    (∀ k, k ≤ 4 + p.length → ∃ u, Host.Core.run Sys2Proof.core (1 + k) s = .next u ∧ u.fault = .none ∧
      u.crcOut = crc32 ((t ++ p).take k))

/-- R121: a verify transaction from any unfaulted state takes `10 + n` commands and ends in exactly one of two outcomes: verified when
`crc32(t ++ p)` is the number of the four bytes, else the fault `CHECKSUM`; in no state on the way is there a `PROTOCOL` or `ILLEGAL`
fault. -/
def Obligations.VerifyTransactionHasTwoOutcomes : Prop :=
  ∀ (s : State) (t p : List Byte) (c0 c1 c2 c3 : Byte) (rest : List PortInput), s.fault = .none → t.length = 4 →
    s.port = presentInstrs (verifyTransaction t p [c0, c1, c2, c3]) ++ rest →
    (∃ u, Host.Core.run Sys2Proof.core (10 + p.length) s = .next u ∧ u.port = rest ∧
      (crc32 (t ++ p) = c0 ++ c1 ++ c2 ++ c3 → u.vok = true ∧ u.fault = .none) ∧
      (crc32 (t ++ p) ≠ c0 ++ c1 ++ c2 ++ c3 → u.vok = false ∧ u.fault = .checksum)) ∧
    (∀ (k : Nat) (u : State), k ≤ 10 + p.length → Host.Core.run Sys2Proof.core k s = .next u →
      u.fault ≠ .protocol ∧ u.fault ≠ .illegal)

/-- R122: one verify transaction per chunk, in order. If every chunk is good the run ends verified; the first chunk that is not leaves
the block faulted to the end, with `vok == 0` and the register of that chunk, so no later chunk is taken as verified. -/
def Obligations.FirstBadChunkStopsTheContainer : Prop :=
  ∀ (s : State) (chunks : List ChunkBytes) (rest : List PortInput), s.fault = .none → (∀ k ∈ chunks, k.framed) →
    s.port = presentInstrs (verifyAll chunks) ++ rest →
    ∃ u, Host.Core.run Sys2Proof.core (verifyAll chunks).length s = .next u ∧ u.port = rest ∧
      (chunks ≠ [] → (∀ k ∈ chunks, k.good) → u.verifiedWell) ∧
      (∀ (before after : List ChunkBytes) (k : ChunkBytes), chunks = before ++ k :: after → (∀ j ∈ before, j.good) → ¬ k.good →
        u.fault = .checksum ∧ u.vok = false ∧ u.crc = crcRegister (chunkMessage k.tag k.payload))

/-- R123: if a compute transaction on `(t, p)` ended with `crc_out == v`, a verify transaction on `(t, p)` with the bytes `be4(v)` ends
with `vok == 1` and no fault. [derived, in the spec's own mark] -/
def Obligations.ComputedChecksumVerifies : Prop :=
  ∀ (s u s' : State) (t p : List Byte) (rest rest' : List PortInput), t.length = 4 → s.fault = .none → s'.fault = .none →
    s.port = presentInstrs (computeTransaction t p) ++ rest →
    Host.Core.run Sys2Proof.core (5 + p.length) s = .next u →
    s'.port = presentInstrs (verifyTransaction t p (be4 u.crcOut)) ++ rest' →
    ∃ u', Host.Core.run Sys2Proof.core (10 + p.length) s' = .next u' ∧ u'.verifiedWell ∧ u'.port = rest'

/-- R124: take a good chunk. If its message is changed, its length kept, within four consecutive bytes (one changed byte among them),
or if only its checksum bytes are changed, the verify transaction ends with the fault `CHECKSUM`. [derived, in the spec's own
mark] -/
def Obligations.CorruptedChunkFaults : Prop :=
  ∀ (s : State) (k k' : ChunkBytes) (rest : List PortInput), s.fault = .none → k.framed → k'.framed → k.good → k' ≠ k →
    k'.payload.length = k.payload.length →
    ((k'.checksum = k.checksum ∧ ∃ pos : Nat, ∀ j, j < pos ∨ pos + 4 ≤ j →
        (chunkMessage k'.tag k'.payload)[j]? = (chunkMessage k.tag k.payload)[j]?) ∨
      (k'.tag = k.tag ∧ k'.payload = k.payload)) →
    s.port = presentInstrs (verifyTransaction k'.tag k'.payload k'.checksum) ++ rest →
    ∃ u, Host.Core.run Sys2Proof.core (10 + k'.payload.length) s = .next u ∧ u.fault = .checksum ∧ u.vok = false

/-- R125: a host that streams a chunk whose checksum field is short, whatever its bytes, gets `PROTOCOL` and never `vok == 1`. -/
def Obligations.TruncatedChunkIsNeverConfirmed : Prop :=
  ∀ (s : State) (t p c : List Byte) (rest : List PortInput), s.fault = .none → c.length < 4 →
    s.port = presentInstrs (verifyTransaction t p c) ++ rest →
    ∃ u, Host.Core.run Sys2Proof.core (verifyTransaction t p c).length s = .next u ∧ u.fault = .protocol ∧ u.vok = false ∧
      u.port = rest

/-- U8, D13 (R102, R110): any interleaving of `UPD` and `LDX`, with at most four bytes loaded in all, has the effect of the two
streams taken apart. -/
def Obligations.StreamsInterleaveFreely : Prop :=
  ∀ (s : State) (is : List Instr) (rest : List PortInput), s.fault = .none → is.all carriesData = true →
    s.xcnt.val + (checksumBytes is).length ≤ 4 → s.port = presentInstrs is ++ rest →
    ∃ u, Host.Core.run Sys2Proof.core is.length s = .next u ∧ u.fault = .none ∧ u.port = rest ∧
      u.crc = (messageBytes is).foldl bytestep s.crc ∧ u.exp = (checksumBytes is).foldl shiftInByte s.exp ∧
      u.xcnt.val = s.xcnt.val + (checksumBytes is).length ∧
      u.vok = (s.vok && (messageBytes is).isEmpty)

/-! ## Assembler -/

/-- R60: the disassembly of every word assembles to that word; an operand outside 0 to 255 is an error; and a reserved word comes only
from `.word`. The case and the blank of the printed text, where R60 leaves them open, are the model's choice (log entry 10). -/
def Obligations.DisassemblyAssemblesBack : Prop :=
  (∀ w : CmdWord, assembleLine (disassemble w) = some [w]) ∧
  (∀ b : Nat, b ≤ 255 → assembleStmt (.upd b) = some [0x200#12 ||| BitVec.ofNat 12 b] ∧
    assembleStmt (.ldx b) = some [0x300#12 ||| BitVec.ofNat 12 b]) ∧
  (∀ b : Nat, 255 < b → assembleStmt (.upd b) = none ∧ assembleStmt (.ldx b) = none) ∧
  (∀ (st : AsmStmt) (words : List CmdWord), (∀ w, st ≠ .word w) → assembleStmt st = some words →
    ∀ w ∈ words, reservedWord w = false)

/-- R61: `crcof` and `check` assemble to the words of the compute and the verify transaction on the codes of their texts, and `ldx32` to
four `ldx` of the bytes `be4`. The two clauses hold for a tag of any length, which R61 does not check and the model accepts (its choice,
log entry 10); for a tag of four characters they are the transactions of R120 and R121. -/
def Obligations.PseudoInstructionsExpandToTransactions : Prop :=
  (∀ tag text : List Nat, tag.all textChar = true → text.all textChar = true →
    assembleStmt (.crcof tag text) =
      some ((computeTransaction (tag.map (BitVec.ofNat 8)) (text.map (BitVec.ofNat 8))).map encode)) ∧
  (∀ (tag text : List Nat) (v : Nat), tag.all textChar = true → text.all textChar = true → v < 2 ^ 32 →
    assembleStmt (.check tag text v) =
      some ((verifyTransaction (tag.map (BitVec.ofNat 8)) (text.map (BitVec.ofNat 8)) (be4 (BitVec.ofNat 32 v))).map encode)) ∧
  (∀ v : Nat, v < 2 ^ 32 → assembleStmt (.ldx32 v) = some ((be4 (BitVec.ofNat 32 v)).map (fun b => encode (.ldx b)))) ∧
  (∀ text : List Nat, text.all textChar = true →
    assembleStmt (.upds text) = some (text.map (fun c => encode (.upd (BitVec.ofNat 8 c))))) ∧
  (∀ bytes : List Nat, bytes.all (· ≤ 255) = true →
    assembleStmt (.updx bytes) = some (bytes.map (fun b => encode (.upd (BitVec.ofNat 8 b))))) ∧
  assembleStmt (.ldx32 0xAE426082) = some [0x3AE#12, 0x342#12, 0x360#12, 0x382#12]
end

