-- ==== Sys2Proof/Config.lean ====
section
/-! DEFINITION. What is fixed about the block (R2, 00_scope.md section 5). The spec leaves no parameter open and no value
undefined in any state a reset block can reach (R175; 93_implementation_defined.md: nothing is `any value`, `stuck` or
`parameter`), so there is no opaque constant here. The numeric constants of the checksum stand in Machine/Crc.lean. -/

namespace Sys2Proof

/-- The name this spec gives the block (R2). -/
def Config.designation : String := "PNGME-CRC32"

/-- Interface version 1.0, major and minor number (R2). -/
def Config.interfaceVersion : Nat × Nat := (1, 0)

end Sys2Proof
end

