-- ==== Sys2Proof/Laws/Decode.lean ====
section
/-! SUPPORT. The fields of a word in format `C`, and the word rebuilt from its fields. -/

namespace Sys2Proof

@[simp] theorem opField_formatC (op : BitVec 4) (imm8 : Byte) : opField (formatC op imm8) = op := by
  show BitVec.extractLsb' 8 4 (op ++ imm8 : BitVec (4 + 8)) = op
  ext i hi
  rw [BitVec.getElem_extractLsb', BitVec.getLsbD_append]
  simp [hi]

@[simp] theorem immField_formatC (op : BitVec 4) (imm8 : Byte) : immField (formatC op imm8) = imm8 := by
  show BitVec.extractLsb' 0 8 (op ++ imm8 : BitVec (4 + 8)) = imm8
  ext i hi
  rw [BitVec.getElem_extractLsb', BitVec.getLsbD_append]
  simp [hi]

/-- The two fields are the whole word (R50). -/
theorem formatC_fields (w : CmdWord) : formatC (opField w) (immField w) = w := by
  show (BitVec.extractLsb' 8 4 w ++ BitVec.extractLsb' 0 8 w : BitVec (4 + 8)) = w
  ext i hi
  rw [BitVec.getElem_append, ← BitVec.getLsbD_eq_getElem hi]
  by_cases h : i < 8
  · simp [h]
  · have h8 : 8 + (i - 8) = i := by omega
    simp [h, h8]

/-- Two words with the same fields are equal. -/
theorem eq_of_fields {v w : CmdWord} (hop : opField v = opField w) (himm : immField v = immField w) : v = w := by
  rw [← formatC_fields v, ← formatC_fields w, hop, himm]

end Sys2Proof
end

