-- ==== Sys2Proof/Laws/State.lean ====
section
/-! SUPPORT. One lemma per field per register write, so that no proof unfolds a record update. -/

namespace Sys2Proof.Machine

@[simp] theorem State.setCrc_crc (s : State) (v : Word) : (s.setCrc v).crc = v := rfl
@[simp] theorem State.setCrc_exp (s : State) (v : Word) : (s.setCrc v).exp = s.exp := rfl
@[simp] theorem State.setCrc_xcnt (s : State) (v : Word) : (s.setCrc v).xcnt = s.xcnt := rfl
@[simp] theorem State.setCrc_vok (s : State) (v : Word) : (s.setCrc v).vok = s.vok := rfl
@[simp] theorem State.setCrc_fault (s : State) (v : Word) : (s.setCrc v).fault = s.fault := rfl
@[simp] theorem State.setCrc_port (s : State) (v : Word) : (s.setCrc v).port = s.port := rfl

@[simp] theorem State.setExp_crc (s : State) (v : Word) : (s.setExp v).crc = s.crc := rfl
@[simp] theorem State.setExp_exp (s : State) (v : Word) : (s.setExp v).exp = v := rfl
@[simp] theorem State.setExp_xcnt (s : State) (v : Word) : (s.setExp v).xcnt = s.xcnt := rfl
@[simp] theorem State.setExp_vok (s : State) (v : Word) : (s.setExp v).vok = s.vok := rfl
@[simp] theorem State.setExp_fault (s : State) (v : Word) : (s.setExp v).fault = s.fault := rfl
@[simp] theorem State.setExp_port (s : State) (v : Word) : (s.setExp v).port = s.port := rfl

@[simp] theorem State.setXcnt_crc (s : State) (v : Fin 5) : (s.setXcnt v).crc = s.crc := rfl
@[simp] theorem State.setXcnt_exp (s : State) (v : Fin 5) : (s.setXcnt v).exp = s.exp := rfl
@[simp] theorem State.setXcnt_xcnt (s : State) (v : Fin 5) : (s.setXcnt v).xcnt = v := rfl
@[simp] theorem State.setXcnt_vok (s : State) (v : Fin 5) : (s.setXcnt v).vok = s.vok := rfl
@[simp] theorem State.setXcnt_fault (s : State) (v : Fin 5) : (s.setXcnt v).fault = s.fault := rfl
@[simp] theorem State.setXcnt_port (s : State) (v : Fin 5) : (s.setXcnt v).port = s.port := rfl

@[simp] theorem State.setVok_crc (s : State) (v : Bool) : (s.setVok v).crc = s.crc := rfl
@[simp] theorem State.setVok_exp (s : State) (v : Bool) : (s.setVok v).exp = s.exp := rfl
@[simp] theorem State.setVok_xcnt (s : State) (v : Bool) : (s.setVok v).xcnt = s.xcnt := rfl
@[simp] theorem State.setVok_vok (s : State) (v : Bool) : (s.setVok v).vok = v := rfl
@[simp] theorem State.setVok_fault (s : State) (v : Bool) : (s.setVok v).fault = s.fault := rfl
@[simp] theorem State.setVok_port (s : State) (v : Bool) : (s.setVok v).port = s.port := rfl

@[simp] theorem State.setFault_crc (s : State) (v : Cause) : (s.setFault v).crc = s.crc := rfl
@[simp] theorem State.setFault_exp (s : State) (v : Cause) : (s.setFault v).exp = s.exp := rfl
@[simp] theorem State.setFault_xcnt (s : State) (v : Cause) : (s.setFault v).xcnt = s.xcnt := rfl
@[simp] theorem State.setFault_vok (s : State) (v : Cause) : (s.setFault v).vok = s.vok := rfl
@[simp] theorem State.setFault_fault (s : State) (v : Cause) : (s.setFault v).fault = v := rfl
@[simp] theorem State.setFault_port (s : State) (v : Cause) : (s.setFault v).port = s.port := rfl

@[simp] theorem State.setPort_crc (s : State) (v : List PortInput) : (s.setPort v).crc = s.crc := rfl
@[simp] theorem State.setPort_exp (s : State) (v : List PortInput) : (s.setPort v).exp = s.exp := rfl
@[simp] theorem State.setPort_xcnt (s : State) (v : List PortInput) : (s.setPort v).xcnt = s.xcnt := rfl
@[simp] theorem State.setPort_vok (s : State) (v : List PortInput) : (s.setPort v).vok = s.vok := rfl
@[simp] theorem State.setPort_fault (s : State) (v : List PortInput) : (s.setPort v).fault = s.fault := rfl
@[simp] theorem State.setPort_port (s : State) (v : List PortInput) : (s.setPort v).port = v := rfl

/-- Two states with the same registers and the same coming inputs are equal. -/
theorem State.ext_fields {s t : State} (hcrc : s.crc = t.crc) (hexp : s.exp = t.exp) (hxcnt : s.xcnt = t.xcnt)
    (hvok : s.vok = t.vok) (hfault : s.fault = t.fault) (hport : s.port = t.port) : s = t := by
  cases s; cases t; simp_all

end Sys2Proof.Machine
end

