-- ==== Sys2Proof/Laws/Ops.lean ====
section
/-! SUPPORT. What each shared operation can do, said once: raising a fault, ignoring a command, reset, taking the pins of an
edge. -/

namespace Sys2Proof.Machine

@[simp] theorem raiseFault_crc (c : Cause) (s : State) : (raiseFault c s).crc = s.crc := rfl
@[simp] theorem raiseFault_exp (c : Cause) (s : State) : (raiseFault c s).exp = s.exp := rfl
@[simp] theorem raiseFault_xcnt (c : Cause) (s : State) : (raiseFault c s).xcnt = s.xcnt := rfl
@[simp] theorem raiseFault_vok (c : Cause) (s : State) : (raiseFault c s).vok = s.vok := rfl
@[simp] theorem raiseFault_fault (c : Cause) (s : State) : (raiseFault c s).fault = c := rfl
@[simp] theorem raiseFault_port (c : Cause) (s : State) : (raiseFault c s).port = s.port := rfl

@[simp] theorem clearMessage_crc (s : State) : (clearMessage s).crc = crcInit := rfl
@[simp] theorem clearMessage_exp (s : State) : (clearMessage s).exp = 0 := rfl
@[simp] theorem clearMessage_xcnt (s : State) : (clearMessage s).xcnt = 0 := rfl
@[simp] theorem clearMessage_vok (s : State) : (clearMessage s).vok = false := rfl
@[simp] theorem clearMessage_fault (s : State) : (clearMessage s).fault = s.fault := rfl
@[simp] theorem clearMessage_port (s : State) : (clearMessage s).port = s.port := rfl

/-- Reset gives the reset state, with the host's later inputs untouched (R22, R170). -/
theorem applyReset_eq (s : State) : applyReset s = { State.reset with port := s.port } := rfl

@[simp] theorem applyReset_port (s : State) : (applyReset s).port = s.port := rfl
@[simp] theorem applyReset_fault (s : State) : (applyReset s).fault = .none := rfl

/-- In an unfaulted state a command has its effect. -/
theorem unlessFaulted_of_none (effect : State → State) {s : State} (h : s.fault = .none) :
    unlessFaulted effect s = .next (effect s) := by simp [unlessFaulted, h]

/-- In a faulted state a command has none. -/
theorem unlessFaulted_of_faulted (effect : State → State) {s : State} (h : s.fault ≠ .none) :
    unlessFaulted effect s = .next s := by simp [unlessFaulted, h]

/-- All that a command's guard can do: the effect in an unfaulted state, or nothing in a faulted one. -/
theorem unlessFaulted_cases {effect : State → State} {s t : State} (h : unlessFaulted effect s = .next t) :
    (s.fault = .none ∧ t = effect s) ∨ (s.fault ≠ .none ∧ t = s) := by
  by_cases hf : s.fault = .none
  · rw [unlessFaulted_of_none effect hf] at h
    exact .inl ⟨hf, by cases h; rfl⟩
  · rw [unlessFaulted_of_faulted effect hf] at h
    exact .inr ⟨hf, by cases h; rfl⟩

@[simp] theorem takeInput_nil {s : State} (h : s.port = []) : takeInput s = (idlePins, s) := by
  simp [takeInput, h]

@[simp] theorem takeInput_cons {s : State} {i : PortInput} {rest : List PortInput} (h : s.port = i :: rest) :
    takeInput s = (i, s.setPort rest) := by
  simp [takeInput, h]

@[simp] theorem edge_presentWord (w : CmdWord) : (presentWord w).edge = .command w := rfl
@[simp] theorem edge_presentReset : presentReset.edge = .reset := rfl
@[simp] theorem edge_idlePins : idlePins.edge = .idle := rfl

/-- Placing a word and taking the next input gives that word back, and the state as it was. -/
theorem takeInput_setPort_cons (s : State) (i : PortInput) :
    takeInput (s.setPort (i :: s.port)) = (i, s) := rfl

@[simp] theorem crcOut_setExp (s : State) (v : Word) : (s.setExp v).crcOut = s.crcOut := rfl
@[simp] theorem crcOut_setXcnt (s : State) (v : Fin 5) : (s.setXcnt v).crcOut = s.crcOut := rfl
@[simp] theorem crcOut_setVok (s : State) (v : Bool) : (s.setVok v).crcOut = s.crcOut := rfl
@[simp] theorem crcOut_setFault (s : State) (c : Cause) : (s.setFault c).crcOut = s.crcOut := rfl
@[simp] theorem crcOut_setPort (s : State) (l : List PortInput) : (s.setPort l).crcOut = s.crcOut := rfl
@[simp] theorem crcOut_raiseFault (c : Cause) (s : State) : (raiseFault c s).crcOut = s.crcOut := rfl

end Sys2Proof.Machine
end

