-- ==== Sys2Proof/Laws/Exec.lean ====
section
/-! SUPPORT. Every command and every edge answers a next state, and what that state can be, said once for `exec`, `execWord`
and `step`. Later proofs cite `exec_eq`, `execWord_eq` and `step_eq` and do not unfold the step. -/

namespace Sys2Proof.Machine

/-- The register writes of each command in an unfaulted state (R100, R101, R102, R110, R111). -/
def effectOf : Instr → State → State
  | .nop, s => s
  | .init, s => clearMessage s
  | .upd b, s => absorbByte b s
  | .ldx b, s => loadByte b s
  | .vfy, s => compareChecksum s

/-- The register writes of a word in an unfaulted state; a reserved word raises `ILLEGAL`. -/
def effectOfWord (w : CmdWord) (s : State) : State :=
  match decode w with
  | .cmd i => effectOf i s
  | .reserved _ => raiseFault .illegal s

/-- What an edge makes of the registers. -/
def effectOfEdge (e : Edge) (s : State) : State :=
  match e with
  | .reset => applyReset s
  | .command w => if s.fault = .none then effectOfWord w s else s
  | .idle => s

theorem exec_eq (i : Instr) (s : State) : exec i s = unlessFaulted (effectOf i) s := by
  cases i <;> rfl

theorem execWord_eq (w : CmdWord) (s : State) : execWord w s = unlessFaulted (effectOfWord w) s := by
  unfold execWord effectOfWord
  cases h : decode w with
  | cmd i => simp [exec_eq, unlessFaulted]
  | reserved why => simp [execReserved, unlessFaulted]

theorem execEdge_eq (e : Edge) (s : State) : execEdge e s = .next (effectOfEdge e s) := by
  cases e with
  | reset => rfl
  | command w => exact (execWord_eq w s).trans rfl
  | idle => rfl

/-- A step never stops; its next state is the effect of the next edge. -/
theorem step_eq (s : State) : step s = .next (effectOfEdge (takeInput s).1.edge (takeInput s).2) :=
  execEdge_eq _ _

/-- Two kinds of list: nothing presented, or one edge to take. -/
theorem step_nil {s : State} (h : s.port = []) : step s = .next s := by
  rw [step_eq, takeInput_nil h]; rfl

theorem step_cons {s : State} {i : PortInput} {rest : List PortInput} (h : s.port = i :: rest) :
    step s = .next (effectOfEdge i.edge (s.setPort rest)) := by
  rw [step_eq, takeInput_cons h]

/-- The commands' effects read and write registers only: the host's later inputs pass through. -/
theorem effectOf_setPort (i : Instr) (s : State) (l : List PortInput) :
    effectOf i (s.setPort l) = (effectOf i s).setPort l := by
  cases i with
  | nop => rfl
  | init => rfl
  | upd b => rfl
  | ldx b =>
    unfold effectOf loadByte
    by_cases h : fieldLoaded s = true
    · have h' : fieldLoaded (s.setPort l) = true := h
      simp only [h, h', if_true]; rfl
    · have h' : ¬ fieldLoaded (s.setPort l) = true := h
      simp only [h, h']; rfl
  | vfy =>
    unfold effectOf compareChecksum
    by_cases h : fieldLoaded s = true
    · have h' : fieldLoaded (s.setPort l) = true := h
      by_cases hm : checksumMatches s = true
      · have hm' : checksumMatches (s.setPort l) = true := hm
        simp only [h, h', hm, hm', if_true]; rfl
      · have hm' : ¬ checksumMatches (s.setPort l) = true := hm
        simp only [h, h', hm, hm', if_true]; rfl
    · have h' : ¬ fieldLoaded (s.setPort l) = true := h
      simp only [h, h']; rfl

/-- One step of a run of the machine, the rest of the run after it. -/
theorem run_succ (n : Nat) (s : State) :
    Host.Core.run core (n + 1) s = Host.Core.run core n (effectOfEdge (takeInput s).1.edge (takeInput s).2) := by
  have h : core.step s = .next (effectOfEdge (takeInput s).1.edge (takeInput s).2) := step_eq s
  simp only [Host.Core.run, h]

/-- A run of the machine never stops. -/
theorem run_next (n : Nat) (s : State) : ∃ t : State, Host.Core.run core n s = .next t := by
  induction n generalizing s with
  | zero => exact ⟨s, rfl⟩
  | succ n ih => rw [run_succ]; exact ih _

end Sys2Proof.Machine
end

