-- ==== Sys2Proof/Laws/PerInstr.lean ====
section
/-! SUPPORT. Statements about each command as syntax: its word selects its row of the opcode map (R52). -/

namespace Sys2Proof

/-- The word of a command selects the row it belongs to, and that row is one of the map's. -/
def Laws.SelectsRow.Statement (i : Instr) : Prop := i.row ∈ opcodeRows ∧ i.row.selects (encode i) = true

theorem Laws.SelectsRow.nop : Laws.SelectsRow.Statement .nop := ⟨by decide, by decide⟩

theorem Laws.SelectsRow.init : Laws.SelectsRow.Statement .init := ⟨by decide, by decide⟩

/-- A word of `UPD` has `op` 2 whatever its operand is. -/
theorem Laws.SelectsRow.upd (imm8 : Byte) : Laws.SelectsRow.Statement (.upd imm8) :=
  ⟨by simp [Instr.row, opcodeRows], by revert imm8; decide⟩

/-- A word of `LDX` has `op` 3 whatever its operand is. -/
theorem Laws.SelectsRow.ldx (imm8 : Byte) : Laws.SelectsRow.Statement (.ldx imm8) :=
  ⟨by simp [Instr.row, opcodeRows], by revert imm8; decide⟩

theorem Laws.SelectsRow.vfy : Laws.SelectsRow.Statement .vfy := ⟨by decide, by decide⟩

end Sys2Proof
end

