-- ==== Sys2Proof/Laws/Run.lean ====
section
/-! SUPPORT. Runs of the machine over a list of edges: a run is the edges' effects one after the other, and a run of `m + n` edges is
a run of `m` followed by one of `n`. -/

namespace Sys2Proof.Machine

/-- An edge's effect does not touch what the host presents later. -/
theorem effectOf_port (i : Instr) (s : State) : (effectOf i s).port = s.port := by
  have h := effectOf_setPort i s s.port
  have hs : s.setPort s.port = s := rfl
  rw [hs] at h
  rw [h]; rfl

theorem effectOfWord_port (w : CmdWord) (s : State) : (effectOfWord w s).port = s.port := by
  unfold effectOfWord
  split
  · exact effectOf_port _ s
  · rfl

theorem effectOfEdge_port (e : Edge) (s : State) : (effectOfEdge e s).port = s.port := by
  cases e with
  | reset => rfl
  | command w =>
    by_cases h : s.fault = .none
    · simp only [effectOfEdge, h, if_true]; exact effectOfWord_port w s
    · simp only [effectOfEdge, h, if_false]
  | idle => rfl

/-- Whatever the host presents later, an edge has the same effect on the registers. -/
theorem effectOfEdge_setPort (e : Edge) (s : State) (l : List PortInput) :
    effectOfEdge e (s.setPort l) = (effectOfEdge e s).setPort l := by
  cases e with
  | reset => rfl
  | command w =>
    have hw : effectOfWord w (s.setPort l) = (effectOfWord w s).setPort l := by
      unfold effectOfWord
      split
      · exact effectOf_setPort _ s l
      · rfl
    by_cases h : s.fault = .none
    · have h' : (s.setPort l).fault = .none := h
      simp [effectOfEdge, h, hw]
    · have h' : ¬ (s.setPort l).fault = .none := h
      simp only [effectOfEdge, h, h', if_false]
  | idle => rfl

/-- The registers after some edges, one after the other. -/
def afterEdges (l : List PortInput) (s : State) : State := l.foldl (fun u i => effectOfEdge i.edge u) s

@[simp] theorem afterEdges_nil (s : State) : afterEdges [] s = s := rfl
@[simp] theorem afterEdges_cons (i : PortInput) (l : List PortInput) (s : State) :
    afterEdges (i :: l) s = afterEdges l (effectOfEdge i.edge s) := rfl
theorem afterEdges_append (l k : List PortInput) (s : State) :
    afterEdges (l ++ k) s = afterEdges k (afterEdges l s) := List.foldl_append

/-- A run over the edges the host presents is their effects in order, and leaves the rest of the host's list. -/
theorem run_edges (l rest : List PortInput) (s : State) (h : s.port = l ++ rest) :
    Host.Core.run core l.length s = .next (afterEdges l (s.setPort rest)) := by
  induction l generalizing s with
  | nil =>
    have hs : s.setPort rest = s := by cases s; simp_all [State.setPort]
    rw [afterEdges_nil, hs]; rfl
  | cons i l ih =>
    have hp : s.port = i :: (l ++ rest) := h
    rw [List.length_cons, run_succ, takeInput_cons hp]
    show Host.Core.run core l.length (effectOfEdge i.edge (s.setPort (l ++ rest))) = _
    rw [ih _ (effectOfEdge_port _ _), afterEdges_cons, ← effectOfEdge_setPort]
    rfl

/-- A run of `m + n` edges is a run of `m`, then of `n`. -/
theorem run_add (m n : Nat) (s : State) {u : State} (h : Host.Core.run core m s = .next u) :
    Host.Core.run core (m + n) s = Host.Core.run core n u := by
  induction m generalizing s with
  | zero =>
    cases h
    rw [Nat.zero_add]
  | succ m ih =>
    rw [run_succ] at h
    rw [Nat.succ_add_eq_add_succ, Nat.add_succ, run_succ]
    exact ih _ h

end Sys2Proof.Machine
end

