-- ==== Sys2Proof/Laws/Values.lean ====
section
/-! SUPPORT. The small lemmas of Machine/Values.lean: how a run of zero bytes grows, and what a zero byte does to the zero
register. -/

namespace Sys2Proof.Machine

@[simp] theorem onesThenZeros_zero : onesThenZeros 0 = [0xFF, 0xFF, 0xFF, 0xFF] := rfl

/-- One more zero byte stands at the end. -/
theorem onesThenZeros_succ (n : Nat) : onesThenZeros (n + 1) = onesThenZeros n ++ [0x00] := by
  simp [onesThenZeros, List.replicate_succ']

@[simp] theorem onesThenZeros_length (n : Nat) : (onesThenZeros n).length = n + 4 := by
  simp [onesThenZeros]

@[simp] theorem zeroByteFixes_iff (r : Word) : zeroByteFixes r = true ↔ bytestep r 0x00 = r := beq_iff_eq

/-- A zero byte leaves the zero register zero. -/
@[simp] theorem bytestep_zero_zero : bytestep 0#32 0x00#8 = 0#32 := by decide

end Sys2Proof.Machine
end

