-- ==== Sys2Proof/Tests/Slice0.lean ====
section
/-! SUPPORT. The model's own tests. Expected values come from 95_test_vectors.md (V1 to V7) and from the encoding tables of the
spec. The `witness_` theorems show, for every statement with hypotheses, a state and operands that meet them. -/

namespace Sys2Proof.Tests

open Sys2Proof Sys2Proof.Machine

/-- The next state of an outcome, if it is one. -/
def nextOf : Host.Outcome State Fault Refusal → Option State
  | .next s => some s
  | .fault _ => none
  | .refused _ => none

/-- A state written as 95_test_vectors.md writes it: `crc exp xcnt vok fault`, nothing presented. -/
def st (crc exp : Word) (xcnt : Fin 5) (vok : Bool) (fault : Cause) : State := ⟨crc, exp, xcnt, vok, fault, []⟩

/-! ## Words and statements that are not well formed -/

/-- R54: one word of each row of the table of reserved words is refused, and their neighbours are not. -/
theorem test_reserved_words_are_ill_formed :
    wordWellFormed 0x001#12 = false ∧ wordWellFormed 0x0FF#12 = false ∧ wordWellFormed 0x101#12 = false ∧
    wordWellFormed 0x1FF#12 = false ∧ wordWellFormed 0x401#12 = false ∧ wordWellFormed 0x4FF#12 = false ∧
    wordWellFormed 0x500#12 = false ∧ wordWellFormed 0xFFF#12 = false ∧
    wordWellFormed 0x000#12 = true ∧ wordWellFormed 0x100#12 = true ∧ wordWellFormed 0x2FF#12 = true ∧
    wordWellFormed 0x3FF#12 = true ∧ wordWellFormed 0x400#12 = true := by decide

/-- R60, R61: an operand out of range is refused for each kind of statement. -/
theorem test_ill_formed_statements :
    (AsmStmt.upd 256).wellFormed = false ∧ (AsmStmt.ldx 256).wellFormed = false ∧ (AsmStmt.word 0x1000).wellFormed = false ∧
    (AsmStmt.upds [0x74, 0x22]).wellFormed = false ∧ (AsmStmt.upds [0x1F]).wellFormed = false ∧
    (AsmStmt.updx [0xFF, 0x100]).wellFormed = false ∧ (AsmStmt.ldx32 0x100000000).wellFormed = false ∧
    (AsmStmt.crcof [0x7F] []).wellFormed = false ∧ (AsmStmt.crcof [] [0x7F]).wellFormed = false ∧
    (AsmStmt.check [0x0A] [] 0).wellFormed = false ∧ (AsmStmt.check [] [0x0A] 0).wellFormed = false ∧
    (AsmStmt.check [] [] 0x100000000).wellFormed = false ∧ (AsmStmt.upd 255).wellFormed = true := by decide

/-! ## Decoding, from the patterns of R52 and the rows of V6 -/

theorem test_decode_nop : decode 0b000000000000#12 = .cmd .nop := by decide
theorem test_decode_init : decode 0b000100000000#12 = .cmd .init := by decide
theorem test_decode_upd : decode 0b001011111111#12 = .cmd (.upd 0xFF#8) := by decide
theorem test_decode_ldx : decode 0b001100000000#12 = .cmd (.ldx 0x00#8) := by decide
theorem test_decode_vfy : decode 0b010000000000#12 = .cmd .vfy := by decide

theorem test_decode_reserved :
    decode 0b000000000001#12 = .reserved (.operandNotZero 0#4 0x01#8) ∧
    decode 0b000111111111#12 = .reserved (.operandNotZero 1#4 0xFF#8) ∧
    decode 0b111111111111#12 = .reserved (.unusedOpcode 15#4 0xFF#8) := by decide

theorem test_encode_words :
    encode .nop = 0x000#12 ∧ encode .init = 0x100#12 ∧ encode (.upd 0x74#8) = 0x274#12 ∧ encode (.ldx 0xAE#8) = 0x3AE#12 ∧
    encode .vfy = 0x400#12 := by decide

/-- A table word of 12 bits in 16: bits above `cmd[11]` are no command. -/
theorem test_table_word :
    decodeTableWord 16 0x274 = some (.upd 0x74#8) ∧ decodeTableWord 16 0x1274 = none ∧ decodeTableWord 12 0x1274 = some (.upd 0x74#8) ∧
    decodeTableWord 16 0x500 = none := by decide

/-! ## The function (V1, V2) -/

theorem test_shift1 : shift1 0xDB710641#32 = 0x80000000#32 ∧ shift1 0xFFFFFFFF#32 = 0x92477CDF#32 := by
  decide +kernel
theorem test_bytestep : bytestep 0x12345678#32 0xAB#8 = 0x1FC8B738#32 ∧ bytestep 0x340BC6D9#32 0x26#8 = 0x2D36E44B#32 := by
  decide +kernel
theorem test_serial_intermediate : bitstep 0xFFFFFFFF#32 false = 0x92477CDF#32 ∧ bytestepSerial 0xFFFFFFFF#32 0x74#8 = 0x7A95A557#32 := by
  decide +kernel
theorem test_table_form : bytestepTable 0xDEBB20E3#32 0x00#8 = 0x39DD08E2#32 ∧ crcTable 0x68#8 = 0x4369E96A#32 := by
  decide +kernel
theorem test_unshift1 : unshift1 0x80000000#32 = 0xDB710641#32 ∧ unshift1 0x76DC4190#32 = 0xEDB88320#32 := by
  decide +kernel
theorem test_crc32_text : crc32 [0x74, 0x65, 0x58, 0x74, 0x68, 0x65, 0x6C, 0x6C, 0x6F] = 0xA3F69134#32 := by
  decide +kernel

/-! ## The commands (V4, V5), one step each -/

theorem test_nop_keeps_vok :
    nextOf (exec .nop (st 0x51BD9F7D 0xAE426082 4 true .none)) = some (st 0x51BD9F7D 0xAE426082 4 true .none) := by decide

theorem test_init_clears :
    nextOf (exec .init (st 0x2B7BF6C3 0xD484093C 4 true .none)) = some (st 0xFFFFFFFF 0x00000000 0 false .none) := by decide

theorem test_init_does_not_recover :
    nextOf (exec .init (st 0x6169477B 0xA3F69134 4 false .checksum)) = some (st 0x6169477B 0xA3F69134 4 false .checksum) := by decide

theorem test_upd_clears_vok :
    nextOf (exec (.upd 0x00) (st 0x51BD9F7D 0xAE426082 4 true .none)) = some (st 0x2EE5B01E 0xAE426082 4 false .none) := by decide

theorem test_upd_after_ldx :
    nextOf (exec (.upd 0x49) (st 0xFFFFFFFF 0x000000AE 1 false .none)) = some (st 0x22FDE946 0x000000AE 1 false .none) := by decide

theorem test_ldx_fourth_byte :
    nextOf (exec (.ldx 0x34) (st 0x5C096ECB 0x00A3F691 3 false .none)) = some (st 0x5C096ECB 0xA3F69134 4 false .none) := by decide

theorem test_ldx_fifth_byte :
    nextOf (exec (.ldx 0x00) (st 0x5C096ECB 0xA3F69134 4 false .none)) = some (st 0x5C096ECB 0xA3F69134 4 false .protocol) := by decide

theorem test_vfy_wrong_byte_order :
    nextOf (exec .vfy (st 0x5C096ECB 0x3491F6A3 4 false .none)) = some (st 0x5C096ECB 0x3491F6A3 4 false .checksum) := by decide

theorem test_vfy_nothing_loaded :
    nextOf (exec .vfy (st 0xFFFFFFFF 0x00000000 0 false .none)) = some (st 0xFFFFFFFF 0x00000000 0 false .protocol) := by decide

/-! ## Edges (V7) -/

/-- Reset wins over the `upd` presented at the same edge, and leaves the faulted state. -/
theorem test_reset_wins :
    nextOf (step { st 0x992BAC53 0 0 false .illegal with port := [⟨true, true, 0x274#12⟩] }) =
      some (st 0xFFFFFFFF 0 0 false .none) := by decide

/-- `cmd` is not decoded while `cmd_valid == 0`. -/
theorem test_idle_edge_ignores_cmd :
    nextOf (step { st 0xFFFFFFFF 0 0 false .none with port := [⟨false, false, 0xFFF#12⟩] }) =
      some (st 0xFFFFFFFF 0 0 false .none) := by decide

/-- A reserved word freezes the block with `vok` at 1. -/
theorem test_reserved_word_step :
    nextOf (step { st 0x5C096ECB 0xA3F69134 4 true .none with port := [presentWord 0x500#12] }) =
      some (st 0x5C096ECB 0xA3F69134 4 true .illegal) := by decide

/-- The first cause is kept. -/
theorem test_first_cause_kept :
    nextOf (step { st 0x6169477B 0xA3F69134 4 false .checksum with port := [presentWord 0x500#12] }) =
      some (st 0x6169477B 0xA3F69134 4 false .checksum) := by decide

/-- A table word is fetched and run as the first command after reset. -/
theorem test_fetch_word :
    nextOf (step (State.reset.withFetchWord 16 0x274)) = some (st 0x7A95A557 0 0 false .none) := by decide

/-! ## Bytes and assembler (R32, R60, R61) -/

theorem test_be4 : be4 0xA3F69134#32 = [0xA3#8, 0xF6#8, 0x91#8, 0x34#8] := by decide

theorem test_chunk_frame :
    chunkFrame [0x49, 0x45, 0x4E, 0x44] [] 0xAE426082#32 =
      [0x00, 0x00, 0x00, 0x00, 0x49, 0x45, 0x4E, 0x44, 0xAE, 0x42, 0x60, 0x82] := by decide

/-- `Upd 't' ; tag`, `ldx 255`, `.word 0x5AB`, a comment line, and errors: an operand out of range, an operand on `nop`, none on `upd`. -/
theorem test_assemble_lines :
    assembleLine ['U', 'p', 'd', ' ', '\'', 't', '\'', ' ', ';', ' ', 't', 'a', 'g'] = some [0x274#12] ∧
    assembleLine ['l', 'd', 'x', ' ', '2', '5', '5'] = some [0x3FF#12] ∧
    assembleLine ['.', 'w', 'o', 'r', 'd', ' ', '0', 'x', '5', 'A', 'B'] = some [0x5AB#12] ∧
    assembleLine [';', ' ', 'n', 'o', 'p'] = some [] ∧
    assembleLine ['u', 'p', 'd', ' ', '2', '5', '6'] = none ∧
    assembleLine ['n', 'o', 'p', ' ', '0'] = none ∧
    assembleLine ['u', 'p', 'd'] = none := by decide

/-- `upds "te"`, `updx 00 fF`, `ldx32 0xAE426082` (the example of R61). -/
theorem test_assemble_pseudo :
    assembleLine ['u', 'p', 'd', 's', ' ', '"', 't', 'e', '"'] = some [0x274#12, 0x265#12] ∧
    assembleLine ['u', 'p', 'd', 'x', ' ', '0', '0', ' ', 'f', 'F'] = some [0x200#12, 0x2FF#12] ∧
    assembleLine ['l', 'd', 'x', '3', '2', ' ', '0', 'x', 'A', 'E', '4', '2', '6', '0', '8', '2'] =
      some [0x3AE#12, 0x342#12, 0x360#12, 0x382#12] := by decide

theorem test_disassemble :
    disassemble 0x274#12 = ['u', 'p', 'd', ' ', '0', 'x', '7', '4'] ∧
    disassemble 0x5AB#12 = ['.', 'w', 'o', 'r', 'd', ' ', '0', 'x', '5', 'A', 'B'] := by decide

end Sys2Proof.Tests
end

