-- ==== Sys2Proof/Tests/Witnesses.lean ====
section
/-! SUPPORT. For every statement of Certificates/Slice0/Obligations.lean that has hypotheses, a concrete state and operands that
meet them together, clause by clause, at the values where clauses meet. -/

namespace Sys2Proof.Tests

open Sys2Proof Sys2Proof.Machine

/-- Faulted, message `"IE"` (V7). -/
def frozen : State := st 0x992BAC53 0x00000000 0 false .illegal

/-- Four bytes loaded and matching (V5). -/
def matching : State := st 0x5C096ECB 0xA3F69134 4 false .none

/-- Four bytes loaded, one bit wrong (V5). -/
def mismatching : State := st 0x5C096ECB 0xA3F69135 4 false .none

/-- Three bytes loaded (V5). -/
def threeLoaded : State := st 0x51BD9F7D 0x00AE4260 3 false .none

/-- Verified (V5). -/
def verified : State := st 0x5C096ECB 0xA3F69134 4 true .none

theorem witness_DecodeIsTheSpecFunction :
    (opField 0x000#12 = 0 ∧ immField 0x000#12 = 0) ∧ (opField 0x100#12 = 1 ∧ immField 0x100#12 = 0) ∧ opField 0x2FF#12 = 2 ∧
    opField 0x300#12 = 3 ∧ (opField 0x400#12 = 4 ∧ immField 0x400#12 = 0) ∧
    (opField 0x001#12 = 0 ∧ immField 0x001#12 ≠ 0) ∧ (opField 0x1FF#12 = 1 ∧ immField 0x1FF#12 ≠ 0) ∧
    (opField 0x401#12 = 4 ∧ immField 0x401#12 ≠ 0) ∧ 5 ≤ (opField 0x500#12).toNat ∧
    frozen.fault ≠ .none ∧ decode 0x400#12 = .cmd .vfy ∧
    (State.reset.fault = .none ∧ decode 0x500#12 = .reserved (.unusedOpcode 5#4 0#8)) := by decide

theorem witness_OpcodeRowsSelectTheirCommands :
    decode 0x2FF#12 = .cmd (.upd 0xFF#8) ∧ (⟨"LDX", 0x300, 0xF00⟩ : OpcodeRow) ∈ opcodeRows ∧
    (⟨"LDX", 0x300, 0xF00⟩ : OpcodeRow).selects 0x3FF#12 = true := by decide

theorem witness_ReservedWordsRaiseIllegal :
    reservedWord 0x0FF#12 = true ∧ reservedWord 0x100#12 = false ∧ reservedWord 0x4FF#12 = true ∧ reservedWord 0x500#12 = true ∧
    State.reset.fault = .none ∧ frozen.fault ≠ .none := by decide

theorem witness_ClockEdgeContract :
    (∃ (s : State) (i : PortInput) (rest : List PortInput), s.port = i :: rest ∧ i.rst = true ∧ i.cmdValid = true) ∧
    (∃ (s : State) (i : PortInput) (rest : List PortInput), s.port = i :: rest ∧ i.rst = false ∧ i.cmdValid = true) ∧
    (∃ (s : State) (i : PortInput) (rest : List PortInput), s.port = i :: rest ∧ i.rst = false ∧ i.cmdValid = false) :=
  ⟨⟨{ frozen with port := [⟨true, true, 0x274#12⟩] }, _, _, rfl, rfl, rfl⟩,
   ⟨{ matching with port := [presentWord 0x400#12] }, _, _, rfl, rfl, rfl⟩,
   ⟨{ matching with port := [⟨false, false, 0xFFF#12⟩] }, _, _, rfl, rfl, rfl⟩⟩

theorem witness_NothingPresentedIsAnIdleEdge : State.reset.port = [] := rfl

theorem witness_StepRunsTheDecodedCommand :
    (∃ (s : State) (w : CmdWord) (i : Instr) (rest : List PortInput), s.port = presentWord w :: rest ∧ decode w = .cmd i) ∧
    decodeTableWord 16 0x3FF = some (.ldx 0xFF#8) :=
  ⟨⟨{ matching with port := [presentWord 0x400#12] }, _, .vfy, _, rfl, by decide⟩, by decide⟩

theorem witness_RegistersDependOnPresentedEdgesOnly :
    ∃ (s s' t t' : State), s.sameRegs s' ∧ s.port.take 1 = s'.port.take 1 ∧ s.port ≠ s'.port ∧
      Host.Core.run Sys2Proof.core 1 s = .next t ∧ Host.Core.run Sys2Proof.core 1 s' = .next t' :=
  ⟨{ State.reset with port := [presentWord 0x274#12] }, { State.reset with port := [presentWord 0x274#12, presentWord 0x100#12] }, _, _,
    ⟨rfl, rfl, rfl, rfl, rfl⟩, rfl, by decide, rfl, rfl⟩

/-- A faulted state, a reset edge, and the unfaulted state after it. -/
theorem witness_reset_leaves_a_fault :
    ∃ s t : State, s.fault ≠ .none ∧ step s = .next t ∧ t.fault = .none :=
  ⟨{ frozen with port := [presentReset] }, _, by decide, rfl, rfl⟩

theorem witness_ResetStateIsAsSpecified :
    ∃ s t : State, s.fault ≠ .none ∧ step s = .next t ∧ t.fault = .none := witness_reset_leaves_a_fault

theorem witness_ResetEdgeFromAnyState :
    (∃ (s : State) (rest : List PortInput), s.port = ⟨true, true, 0x274#12⟩ :: rest) ∧
    (∃ (s : State) (i j : PortInput) (rest : List PortInput), i.rst = true ∧ j.rst = true ∧ s.port = i :: j :: rest) ∧
    (∃ s t : State, s.fault ≠ .none ∧ step s = .next t ∧ t.fault = .none) ∧ verified.fault = .none ∧ frozen.fault ≠ .none :=
  ⟨⟨{ frozen with port := [⟨true, true, 0x274#12⟩] }, _, rfl⟩,
   ⟨{ frozen with port := [presentReset, presentReset] }, _, _, _, rfl, rfl, rfl⟩, witness_reset_leaves_a_fault, rfl, by decide⟩

theorem witness_NopChangesNothing :
    (0x001 ≤ (0x001#12).toNat ∧ (0x001#12).toNat ≤ 0x0FF) ∧ (0x001 ≤ (0x0FF#12).toNat ∧ (0x0FF#12).toNat ≤ 0x0FF) ∧
    State.reset.fault = .none := by decide

theorem witness_InitStartsANewMessage :
    verified.fault = .none ∧ frozen.fault ≠ .none ∧ (∃ t, exec .init verified = .next t) ∧ (∃ t, exec .init frozen = .next t) ∧
    (0x101 ≤ (0x1FF#12).toNat ∧ (0x1FF#12).toNat ≤ 0x1FF) :=
  ⟨rfl, by decide, ⟨_, rfl⟩, ⟨_, rfl⟩, by decide⟩

theorem witness_UpdAbsorbsAByte :
    verified.fault = .none ∧ frozen.fault ≠ .none ∧
    (∃ (s t : State) (b : Byte) (m : List Byte), s.fault = .none ∧ s.crc = crcRegister m ∧ exec (.upd b) s = .next t) ∧
    (∃ s t : State, s.fault = .none ∧ s.crc = 0 ∧ exec (.upd 0x00#8) s = .next t) :=
  ⟨rfl, by decide, ⟨st 0x7A95A557 0 0 false .none, _, 0x65, [0x74], rfl, by decide, rfl⟩,
   ⟨st 0 0 0 false .none, _, rfl, rfl, rfl⟩⟩

theorem witness_LdxLoadsAChecksumByte :
    (threeLoaded.fault = .none ∧ threeLoaded.xcnt ≠ 4) ∧ (matching.fault = .none ∧ matching.xcnt = 4) ∧ frozen.fault ≠ .none ∧
    (∃ s0, exec .init matching = .next s0) ∧ (threeLoaded.Inv ∧ threeLoaded.xcnt ≠ 4) :=
  ⟨by decide, by decide, by decide, ⟨_, rfl⟩, ⟨by decide, by decide, by decide, by decide⟩, by decide⟩

theorem witness_VfyComparesTheChecksum :
    (threeLoaded.fault = .none ∧ threeLoaded.xcnt ≠ 4) ∧
    (matching.fault = .none ∧ matching.xcnt = 4 ∧ matching.crc ^^^ 0xFFFFFFFF#32 = matching.exp) ∧
    (mismatching.fault = .none ∧ mismatching.xcnt = 4 ∧ mismatching.crc ^^^ 0xFFFFFFFF#32 ≠ mismatching.exp) ∧
    frozen.fault ≠ .none ∧ (∃ t, exec .vfy matching = .next t ∧ t.fault = .none) ∧
    (0x401 ≤ (0x401#12).toNat ∧ (0x401#12).toNat ≤ 0x4FF) :=
  ⟨by decide, by decide, by decide, by decide, ⟨_, rfl, rfl⟩, by decide⟩

theorem witness_CommandsWriteOnlyTheirRegisters :
    ∃ t, exec (.upd 0x49) threeLoaded = .next t := ⟨_, rfl⟩

theorem witness_NopInitVfyAreIdempotent :
    (∃ t, exec .nop matching = .next t) ∧ (∃ t, exec .init matching = .next t) ∧
    (∃ t, exec .vfy matching = .next t ∧ t.vok = true ∧ t.fault = .none) ∧
    (∃ (s t u : State) (b : Byte) (m : List Byte), s.fault = .none ∧ s.crc = crcRegister m ∧ exec (.upd b) s = .next t ∧
      exec (.upd b) t = .next u) ∧
    (∃ (s t u : State) (b : Byte), s.fault = .none ∧ s.xcnt.val ≤ 2 ∧ exec (.ldx b) s = .next t ∧ exec (.ldx b) t = .next u) :=
  ⟨⟨_, rfl⟩, ⟨_, rfl⟩, ⟨_, rfl, rfl, rfl⟩, ⟨State.reset, _, _, 0x74, [], rfl, rfl, rfl, rfl⟩,
   ⟨st 0xFFFFFFFF 0x0000AE42 2 false .none, _, _, 0x60, rfl, by decide, rfl, rfl⟩⟩

theorem witness_VokRisesOnlyOnAMatch :
    (∃ s t : State, step s = .next t ∧ s.vok = false ∧ t.vok = true) ∧
    (matching.fault = .none ∧ matching.xcnt = 4 ∧ matching.crcOut = matching.exp) ∧
    (∃ t, exec .init verified = .next t) ∧ (∃ t, exec (.upd 0x00) verified = .next t) ∧
    (∃ (s t : State) (i : PortInput) (rest : List PortInput), s.port = i :: rest ∧ i.rst = true ∧ step s = .next t) ∧
    (∃ t, exec (.ldx 0x00) verified = .next t) ∧ (∃ t, exec .nop verified = .next t) ∧
    (∃ t, exec .vfy threeLoaded = .next t ∧ t.fault ≠ .none) ∧
    (mismatching.Inv ∧ ∃ t, exec .vfy mismatching = .next t ∧ t.fault = .checksum) :=
  ⟨⟨{ matching with port := [presentWord 0x400#12] }, _, rfl, rfl, rfl⟩, by decide, ⟨_, rfl⟩, ⟨_, rfl⟩,
   ⟨{ verified with port := [presentReset] }, _, _, _, rfl, rfl, rfl⟩, ⟨_, rfl⟩, ⟨_, rfl⟩, ⟨_, rfl, by decide⟩,
   ⟨by decide, by decide, by decide, by decide⟩, ⟨_, rfl, rfl⟩⟩

theorem witness_FaultCausesAreExactlyThese :
    (∃ (s t : State) (w : CmdWord), s.fault = .none ∧ execWord w s = .next t ∧ t.fault = .protocol) ∧
    (∃ (s t : State) (w : CmdWord), s.fault ≠ .none ∧ execWord w s = .next t) :=
  ⟨⟨threeLoaded, _, 0x400#12, rfl, rfl, rfl⟩, ⟨frozen, _, 0x500#12, by decide, rfl⟩⟩

theorem witness_FaultsArePrecise :
    ∃ s t : State, step s = .next t ∧ s.fault = .none ∧ t.fault ≠ .none :=
  ⟨{ verified with port := [presentWord 0x500#12] }, _, rfl, rfl, by decide⟩

theorem witness_FaultedIsFrozenUntilReset :
    (∃ (n : Nat) (s t : State), s.fault ≠ .none ∧ (∀ i ∈ s.port.take n, i.rst = false) ∧
      Host.Core.run Sys2Proof.core n s = .next t ∧ n = 2) ∧
    (∃ s t : State, s.fault ≠ .none ∧ step s = .next t ∧ t.fault = .none) ∧
    (State.reset.fault = .none ∧ decode 0x100#12 = .cmd .init) ∧
    (State.reset.fault = .none ∧ decode 0x4FF#12 = .reserved (.operandNotZero 4#4 0xFF#8)) :=
  ⟨⟨2, { frozen with port := [presentWord 0x24E#12, presentWord 0x500#12] }, _, by decide, by decide, rfl, rfl⟩,
   witness_reset_leaves_a_fault, by decide, by decide⟩

theorem witness_StepKeepsTheRegisterInvariant :
    ∃ s t : State, s.Inv ∧ s.vok = true ∧ step s = .next t :=
  ⟨{ verified with port := [presentWord 0x200#12] }, _, ⟨by decide, by decide, by decide, by decide⟩, rfl, rfl⟩

theorem witness_StepKeepsTrackOfTheHistory :
    ∃ (s t : State) (h : History), s.fault = .none ∧ s.Tracks h ∧ step s = .next t :=
  ⟨{ st 0x7A95A557 0x000000AE 1 false .none with port := [presentWord 0x265#12] }, _, ⟨[0x74], [0xAE]⟩, rfl,
    fun _ => ⟨by decide, by decide, rfl⟩, rfl⟩

theorem witness_CrcOutIsTheChecksumOfTheMessage :
    ∃ (l : List PortInput) (t : State),
      Host.Core.run Sys2Proof.core l.length { State.reset with port := l } = .next t ∧ t.fault = .none ∧
      (History.ofInputs l).message = [0x74] :=
  ⟨[presentWord 0x249#12, presentWord 0x100#12, presentWord 0x274#12], _, rfl, rfl, by decide⟩

theorem witness_ExpIsTheBigEndianNumber :
    ∃ (s : State) (bytes : List Byte) (rest : List PortInput), s.fault = .none ∧ s.xcnt = 0 ∧ s.exp = 0 ∧ bytes.length = 4 ∧
      s.port = presentInstrs (bytes.map .ldx) ++ rest :=
  ⟨{ State.reset with port := presentInstrs ([0xA3, 0xF6, 0x91, 0x34].map .ldx) }, [0xA3, 0xF6, 0x91, 0x34], [],
    rfl, rfl, rfl, rfl, by simp⟩

theorem witness_ByteStepIsInvertible :
    (∃ (r : Word) (b b' : Byte), bytestep r b = bytestep r b') ∧
    (∃ i j : Byte, (crcTable i).extractLsb' 24 8 = (crcTable j).extractLsb' 24 8) :=
  ⟨⟨0, 1, 1, rfl⟩, ⟨0x80, 0x80, rfl⟩⟩

theorem witness_AbsorbingIsIncremental :
    ∃ (s : State) (a b : List Byte) (rest : List PortInput) (k : Nat), s.fault = .none ∧ s.crc = crcRegister a ∧ k ≤ b.length ∧
      s.port = presentInstrs (b.map .upd) ++ rest ∧ k = 1 :=
  ⟨{ st 0x7A95A557 0 0 false .none with port := presentInstrs ([0x65, 0x58].map .upd) }, [0x74], [0x65, 0x58], [], 1, rfl, by decide,
    by decide, by simp, rfl⟩

theorem witness_ParticularChecksums :
    ([0x80#8], 0x3FBA6CAD#32) ∈ particularChecksums ∧ ([0xFF#8], 0x00FFFFFF#32) ∈ particularRegisters ∧ verified.fault = .none := by
  decide

theorem witness_ZeroIsTheOnlyFixedPointOfAZeroByte :
    (State.reset.fault = .none ∧ State.reset.crc ≠ 0) ∧ ((st 0 0 0 false .none).fault = .none ∧ (st 0 0 0 false .none).crc = 0) := by
  decide

theorem witness_ChecksumIsAffine :
    ∃ a b c : List Byte, a.length = b.length ∧ b.length = c.length ∧ a ≠ b :=
  ⟨[0x61, 0x62, 0x63], [0x78, 0x79, 0x7A], [0x00, 0x00, 0x00], rfl, rfl, by decide⟩

theorem witness_OneChangedByteIsCaught : (0x68#8 : Byte) ≠ 0x69#8 := by decide

/-- Two messages that differ in the 32 stream bits 4 to 35 only, at both ends of that window. -/
theorem witness_BurstsOfThirtyTwoBitsAreCaught :
    ∃ (m m' : List Byte) (k : Nat), m.length = m'.length ∧ m ≠ m' ∧
      (∀ j, j < k ∨ k + 32 ≤ j → (messageBits m)[j]? = (messageBits m')[j]?) := by
  refine ⟨[0x00, 0x00, 0x00, 0x00, 0x00], [0x10, 0x00, 0x00, 0x00, 0x08], 4, rfl, by decide, ?_⟩
  intro j hj
  by_cases h : j < 40
  · have key : ∀ i : Fin 40, i.val < 4 ∨ 4 + 32 ≤ i.val →
        (messageBits [0x00, 0x00, 0x00, 0x00, 0x00])[i.val]? = (messageBits [0x10, 0x00, 0x00, 0x00, 0x08])[i.val]? := by decide
    exact key ⟨j, h⟩ hj
  · have h1 : (messageBits [0x00, 0x00, 0x00, 0x00, 0x00]).length = 40 := by decide
    have h2 : (messageBits [0x10, 0x00, 0x00, 0x00, 0x08]).length = 40 := by decide
    rw [List.getElem?_eq_none (by omega), List.getElem?_eq_none (by omega)]

/-- The premises of the polynomial reading are definitions of `G`, `I` and `D`, so they can be met for every message. -/
theorem witness_RegisterIsThePolynomialRemainder :
    ∃ (m : List Byte) (G I D : Polynomial (ZMod 2)) (k : Nat),
      G = Polynomial.X ^ 32 + Polynomial.X ^ 26 + Polynomial.X ^ 23 + Polynomial.X ^ 22 + Polynomial.X ^ 16 + Polynomial.X ^ 12 +
        Polynomial.X ^ 11 + Polynomial.X ^ 10 + Polynomial.X ^ 8 + Polynomial.X ^ 7 + Polynomial.X ^ 5 + Polynomial.X ^ 4 +
        Polynomial.X ^ 2 + Polynomial.X + 1 ∧
      I = (Finset.range 32).sum (fun j => Polynomial.X ^ j) ∧
      D = (Finset.range (8 * m.length)).sum
        (fun i => if (messageBits m).getD i false then Polynomial.X ^ (8 * m.length - 1 - i) else 0) ∧
      k < 32 ∧ m ≠ [] :=
  ⟨[0x74], _, _, _, 31, rfl, rfl, rfl, by decide, by decide⟩

theorem witness_ChecksumTravelsBigEndian : ([0xA3, 0xF6, 0x91, 0x34] : List Byte).length = 4 := rfl

theorem witness_ComputeTransactionGivesTheChecksum :
    ∃ (s : State) (t p : List Byte) (rest : List PortInput), s.fault = .none ∧ t.length = 4 ∧
      s.port = presentInstrs (computeTransaction t p) ++ rest ∧ 4 ≤ 4 + p.length :=
  ⟨{ verified with port := presentInstrs (computeTransaction [0x49, 0x45, 0x4E, 0x44] []) }, [0x49, 0x45, 0x4E, 0x44], [], [], rfl, rfl,
    by simp, by decide⟩

/-- One frame that verifies and one that does not (S1, P4). -/
theorem witness_VerifyTransactionHasTwoOutcomes :
    (∃ (s : State) (t p : List Byte) (c0 c1 c2 c3 : Byte) (rest : List PortInput), s.fault = .none ∧ t.length = 4 ∧
      s.port = presentInstrs (verifyTransaction t p [c0, c1, c2, c3]) ++ rest ∧ crc32 (t ++ p) = c0 ++ c1 ++ c2 ++ c3) ∧
    (∃ (s : State) (t p : List Byte) (c0 c1 c2 c3 : Byte) (rest : List PortInput), s.fault = .none ∧ t.length = 4 ∧
      s.port = presentInstrs (verifyTransaction t p [c0, c1, c2, c3]) ++ rest ∧ crc32 (t ++ p) ≠ c0 ++ c1 ++ c2 ++ c3) ∧
    (∃ (k : Nat) (s u : State), s.fault = .none ∧
      s.port = presentInstrs (verifyTransaction [0x49, 0x45, 0x4E, 0x44] [] [0xAE, 0x42, 0x60, 0x82]) ∧ k ≤ 10 ∧
      Host.Core.run Sys2Proof.core k s = .next u) :=
  ⟨⟨{ State.reset with port := presentInstrs (verifyTransaction [0x49, 0x45, 0x4E, 0x44] [] [0xAE, 0x42, 0x60, 0x82]) },
      [0x49, 0x45, 0x4E, 0x44], [], 0xAE, 0x42, 0x60, 0x82, [], rfl, rfl, by simp, by decide⟩,
   ⟨{ State.reset with port := presentInstrs (verifyTransaction [0x49, 0x45, 0x4E, 0x44] [] [0x82, 0x60, 0x42, 0xAE]) },
      [0x49, 0x45, 0x4E, 0x44], [], 0x82, 0x60, 0x42, 0xAE, [], rfl, rfl, by simp, by decide⟩,
   ⟨1, { State.reset with port := presentInstrs (verifyTransaction [0x49, 0x45, 0x4E, 0x44] [] [0xAE, 0x42, 0x60, 0x82]) }, _, rfl, rfl,
      by decide, rfl⟩⟩

/-- A good chunk (S1). -/
def goodChunk : ChunkBytes := ⟨[0x49, 0x45, 0x4E, 0x44], [], [0xAE, 0x42, 0x60, 0x82]⟩

/-- The same chunk with one bit of its tag flipped. -/
def corruptedChunk : ChunkBytes := ⟨[0x49, 0x45, 0x4E, 0x45], [], [0xAE, 0x42, 0x60, 0x82]⟩

/-- The same chunk with its checksum bytes in the wrong order. -/
def reversedChunk : ChunkBytes := ⟨[0x49, 0x45, 0x4E, 0x44], [], [0x82, 0x60, 0x42, 0xAE]⟩

theorem goodChunk_is_good : goodChunk.framed ∧ goodChunk.good := ⟨⟨rfl, rfl⟩, by show crc32 _ = _; decide⟩

theorem corruptedChunk_is_not : corruptedChunk.framed ∧ ¬ corruptedChunk.good := ⟨⟨rfl, rfl⟩, by show ¬ crc32 _ = _; decide⟩

theorem witness_FirstBadChunkStopsTheContainer :
    (∃ (s : State) (chunks : List ChunkBytes) (rest : List PortInput), s.fault = .none ∧ (∀ k ∈ chunks, k.framed) ∧
      s.port = presentInstrs (verifyAll chunks) ++ rest ∧ chunks ≠ [] ∧ ∀ k ∈ chunks, k.good) ∧
    (∃ (s : State) (chunks before after : List ChunkBytes) (k : ChunkBytes) (rest : List PortInput), s.fault = .none ∧
      (∀ k ∈ chunks, k.framed) ∧ s.port = presentInstrs (verifyAll chunks) ++ rest ∧ chunks = before ++ k :: after ∧ before ≠ [] ∧
      (∀ j ∈ before, j.good) ∧ ¬ k.good) := by
  refine ⟨⟨{ State.reset with port := presentInstrs (verifyAll [goodChunk]) }, [goodChunk], [], rfl, ?_, by simp, by simp, ?_⟩,
    ⟨{ State.reset with port := presentInstrs (verifyAll [goodChunk, corruptedChunk, goodChunk]) },
      [goodChunk, corruptedChunk, goodChunk], [goodChunk], [goodChunk], corruptedChunk, [], rfl, ?_, by simp, rfl, by simp, ?_,
      corruptedChunk_is_not.2⟩⟩
  all_goals simp [goodChunk_is_good, corruptedChunk_is_not]

theorem witness_ComputedChecksumVerifies :
    ∃ (s u s' : State) (t p : List Byte) (rest rest' : List PortInput), t.length = 4 ∧ s.fault = .none ∧ s'.fault = .none ∧
      s.port = presentInstrs (computeTransaction t p) ++ rest ∧ Host.Core.run Sys2Proof.core (5 + p.length) s = .next u ∧
      s'.port = presentInstrs (verifyTransaction t p (be4 u.crcOut)) ++ rest' :=
  ⟨{ State.reset with port := presentInstrs (computeTransaction [0x49, 0x45, 0x4E, 0x44] []) }, _,
    { verified with port := presentInstrs (verifyTransaction [0x49, 0x45, 0x4E, 0x44] [] (be4 _)) },
    [0x49, 0x45, 0x4E, 0x44], [], [], [], rfl, rfl, rfl, by simp, rfl, by rw [List.append_nil]⟩

theorem witness_CorruptedChunkFaults :
    (∃ (s : State) (k k' : ChunkBytes) (rest : List PortInput), s.fault = .none ∧ k.framed ∧ k'.framed ∧ k.good ∧ k' ≠ k ∧
      k'.payload.length = k.payload.length ∧
      (k'.checksum = k.checksum ∧ ∃ pos : Nat, ∀ j, j < pos ∨ pos + 4 ≤ j →
        (chunkMessage k'.tag k'.payload)[j]? = (chunkMessage k.tag k.payload)[j]?) ∧
      s.port = presentInstrs (verifyTransaction k'.tag k'.payload k'.checksum) ++ rest) ∧
    (∃ (s : State) (k k' : ChunkBytes) (rest : List PortInput), s.fault = .none ∧ k.framed ∧ k'.framed ∧ k.good ∧ k' ≠ k ∧
      k'.payload.length = k.payload.length ∧ (k'.tag = k.tag ∧ k'.payload = k.payload) ∧
      s.port = presentInstrs (verifyTransaction k'.tag k'.payload k'.checksum) ++ rest) := by
  refine ⟨⟨{ State.reset with port := presentInstrs (verifyTransaction corruptedChunk.tag corruptedChunk.payload corruptedChunk.checksum) },
      goodChunk, corruptedChunk, [], rfl, goodChunk_is_good.1, corruptedChunk_is_not.1, goodChunk_is_good.2, by decide, rfl,
      ⟨rfl, 0, ?_⟩, by simp⟩,
    ⟨{ State.reset with port := presentInstrs (verifyTransaction reversedChunk.tag reversedChunk.payload reversedChunk.checksum) },
      goodChunk, reversedChunk, [], rfl, goodChunk_is_good.1, ⟨rfl, rfl⟩, goodChunk_is_good.2, by decide, rfl, ⟨rfl, rfl⟩, by simp⟩⟩
  intro j hj
  have h1 : (chunkMessage corruptedChunk.tag corruptedChunk.payload).length = 4 := rfl
  have h2 : (chunkMessage goodChunk.tag goodChunk.payload).length = 4 := rfl
  rw [List.getElem?_eq_none (by omega), List.getElem?_eq_none (by omega)]

theorem witness_TruncatedChunkIsNeverConfirmed :
    ∃ (s : State) (t p c : List Byte) (rest : List PortInput), s.fault = .none ∧ c.length < 4 ∧
      s.port = presentInstrs (verifyTransaction t p c) ++ rest :=
  ⟨{ State.reset with port := presentInstrs (verifyTransaction [0x49, 0x45, 0x4E, 0x44] [] [0xAE, 0x42, 0x60]) },
    [0x49, 0x45, 0x4E, 0x44], [], [0xAE, 0x42, 0x60], [], rfl, by decide, by simp⟩

theorem witness_StreamsInterleaveFreely :
    ∃ (s : State) (is : List Instr) (rest : List PortInput), s.fault = .none ∧ is.all carriesData = true ∧
      s.xcnt.val + (checksumBytes is).length = 4 ∧ s.port = presentInstrs is ++ rest :=
  ⟨{ threeLoaded with port := presentInstrs [.upd 0x49, .ldx 0x82, .upd 0x45] }, [.upd 0x49, .ldx 0x82, .upd 0x45], [], rfl, rfl, rfl,
    by simp⟩

theorem witness_DisassemblyAssemblesBack :
    (255 ≤ 255) ∧ (255 < 256) ∧ (∃ words, assembleStmt (.updx [0x49]) = some words ∧ words ≠ []) :=
  ⟨by decide, by decide, ⟨[0x249#12], by decide, by decide⟩⟩

theorem witness_PseudoInstructionsExpandToTransactions :
    ([0x74, 0x65, 0x58, 0x74] : List Nat).all textChar = true ∧ 0xA3F69134 < 2 ^ 32 ∧ ([0, 255] : List Nat).all (· ≤ 255) = true := by decide

end Sys2Proof.Tests
end

section
/-! The rules of the state's operations that the obligations of family 10_state rest on, and the proofs of those obligations.
Rules first, one per operation and case; then what an edge can do; then the invariants; then the obligations. -/

namespace Sys2Proof.Machine

/-! ### What each command's effect writes -/

@[simp] theorem absorbByte_crc (b : Byte) (s : State) : (absorbByte b s).crc = bytestep s.crc b := rfl
@[simp] theorem absorbByte_exp (b : Byte) (s : State) : (absorbByte b s).exp = s.exp := rfl
@[simp] theorem absorbByte_xcnt (b : Byte) (s : State) : (absorbByte b s).xcnt = s.xcnt := rfl
@[simp] theorem absorbByte_vok (b : Byte) (s : State) : (absorbByte b s).vok = false := rfl
@[simp] theorem absorbByte_fault (b : Byte) (s : State) : (absorbByte b s).fault = s.fault := rfl

@[simp] theorem fieldLoaded_iff (s : State) : fieldLoaded s = true ↔ s.xcnt = 4 := beq_iff_eq
@[simp] theorem checksumMatches_iff (s : State) : checksumMatches s = true ↔ s.crcOut = s.exp := beq_iff_eq

/-- A fifth byte raises `PROTOCOL` (R110). -/
theorem loadByte_of_full (b : Byte) {s : State} (h : s.xcnt = 4) : loadByte b s = raiseFault .protocol s :=
  if_pos ((fieldLoaded_iff s).2 h)

/-- A byte for which there is room is shifted in and counted (R110). -/
theorem loadByte_of_room (b : Byte) {s : State} (h : s.xcnt ≠ 4) :
    loadByte b s = (s.setExp (shiftInByte s.exp b)).setXcnt (s.xcnt + 1) :=
  if_neg (mt (fieldLoaded_iff s).1 h)

/-- `VFY` before four bytes are loaded raises `PROTOCOL` (R111). -/
theorem compareChecksum_of_room {s : State} (h : s.xcnt ≠ 4) : compareChecksum s = raiseFault .protocol s :=
  if_neg (mt (fieldLoaded_iff s).1 h)

/-- `VFY` on a match writes `vok` (R111). -/
theorem compareChecksum_of_match {s : State} (hx : s.xcnt = 4) (hm : s.crcOut = s.exp) :
    compareChecksum s = s.setVok true :=
  (if_pos ((fieldLoaded_iff s).2 hx)).trans (if_pos ((checksumMatches_iff s).2 hm))

/-- `VFY` on a mismatch raises `CHECKSUM` (R111). -/
theorem compareChecksum_of_mismatch {s : State} (hx : s.xcnt = 4) (hm : s.crcOut ≠ s.exp) :
    compareChecksum s = raiseFault .checksum s :=
  (if_pos ((fieldLoaded_iff s).2 hx)).trans (if_neg (mt (checksumMatches_iff s).1 hm))

/-- All that `LDX` can do in an unfaulted state. -/
theorem loadByte_cases (b : Byte) (s : State) :
    (s.xcnt = 4 ∧ loadByte b s = raiseFault .protocol s) ∨
    (s.xcnt ≠ 4 ∧ loadByte b s = (s.setExp (shiftInByte s.exp b)).setXcnt (s.xcnt + 1)) := by
  by_cases h : s.xcnt = 4
  · exact .inl ⟨h, loadByte_of_full b h⟩
  · exact .inr ⟨h, loadByte_of_room b h⟩

/-- All that `VFY` can do in an unfaulted state. -/
theorem compareChecksum_cases (s : State) :
    (s.xcnt ≠ 4 ∧ compareChecksum s = raiseFault .protocol s) ∨
    (s.xcnt = 4 ∧ s.crcOut = s.exp ∧ compareChecksum s = s.setVok true) ∨
    (s.xcnt = 4 ∧ s.crcOut ≠ s.exp ∧ compareChecksum s = raiseFault .checksum s) := by
  by_cases hx : s.xcnt = 4
  · by_cases hm : s.crcOut = s.exp
    · exact .inr (.inl ⟨hx, hm, compareChecksum_of_match hx hm⟩)
    · exact .inr (.inr ⟨hx, hm, compareChecksum_of_mismatch hx hm⟩)
  · exact .inl ⟨hx, compareChecksum_of_room hx⟩

@[simp] theorem loadByte_crc (b : Byte) (s : State) : (loadByte b s).crc = s.crc := by
  obtain ⟨-, h⟩ | ⟨-, h⟩ := loadByte_cases b s <;> simp [h]

@[simp] theorem loadByte_vok (b : Byte) (s : State) : (loadByte b s).vok = s.vok := by
  obtain ⟨-, h⟩ | ⟨-, h⟩ := loadByte_cases b s <;> simp [h]

@[simp] theorem compareChecksum_crc (s : State) : (compareChecksum s).crc = s.crc := by
  obtain ⟨-, h⟩ | ⟨-, -, h⟩ | ⟨-, -, h⟩ := compareChecksum_cases s <;> simp [h]

@[simp] theorem compareChecksum_exp (s : State) : (compareChecksum s).exp = s.exp := by
  obtain ⟨-, h⟩ | ⟨-, -, h⟩ | ⟨-, -, h⟩ := compareChecksum_cases s <;> simp [h]

@[simp] theorem compareChecksum_xcnt (s : State) : (compareChecksum s).xcnt = s.xcnt := by
  obtain ⟨-, h⟩ | ⟨-, -, h⟩ | ⟨-, -, h⟩ := compareChecksum_cases s <;> simp [h]

@[simp] theorem effectOf_nop (s : State) : effectOf .nop s = s := rfl
@[simp] theorem effectOf_init (s : State) : effectOf .init s = clearMessage s := rfl
@[simp] theorem effectOf_upd (b : Byte) (s : State) : effectOf (.upd b) s = absorbByte b s := rfl
@[simp] theorem effectOf_ldx (b : Byte) (s : State) : effectOf (.ldx b) s = loadByte b s := rfl
@[simp] theorem effectOf_vfy (s : State) : effectOf .vfy s = compareChecksum s := rfl

/-- A command executed in an unfaulted state. -/
theorem exec_of_none (i : Instr) {s : State} (h : s.fault = .none) : exec i s = .next (effectOf i s) := by
  rw [exec_eq, unlessFaulted_of_none _ h]

/-- The state after a command executed in an unfaulted state. -/
theorem eq_of_exec {i : Instr} {s t : State} (hf : s.fault = .none) (h : exec i s = .next t) : t = effectOf i s := by
  rw [exec_of_none i hf] at h
  cases h
  rfl

/-- All that a command can do: its effect in an unfaulted state, nothing in a faulted one (R142). -/
theorem exec_cases {i : Instr} {s t : State} (h : exec i s = .next t) :
    (s.fault = .none ∧ t = effectOf i s) ∨ (s.fault ≠ .none ∧ t = s) :=
  unlessFaulted_cases (exec_eq i s ▸ h)

/-! ### Edges and the step -/

theorem edge_of_rst {i : PortInput} (h : i.rst = true) : i.edge = .reset := by simp [PortInput.edge, h]

theorem edge_of_valid {i : PortInput} (hr : i.rst = false) (hv : i.cmdValid = true) : i.edge = .command i.cmd := by
  simp [PortInput.edge, hr, hv]

theorem edge_of_invalid {i : PortInput} (hr : i.rst = false) (hv : i.cmdValid = false) : i.edge = .idle := by
  simp [PortInput.edge, hr, hv]

/-- Only `rst` makes an edge a reset. -/
theorem rst_of_edge_reset {i : PortInput} (h : i.edge = .reset) : i.rst = true := by
  unfold PortInput.edge at h
  split at h
  · assumption
  · split at h <;> cases h

/-- Only a valid command without `rst` makes an edge a command. -/
theorem pins_of_edge_command {i : PortInput} {w : CmdWord} (h : i.edge = .command w) :
    i.rst = false ∧ i.cmdValid = true ∧ i.cmd = w := by
  unfold PortInput.edge at h
  split at h
  · cases h
  · split at h
    · cases h; simp_all
    · cases h

/-- Taking an edge off the list changes the list only. -/
theorem takeInput_snd (s : State) : (takeInput s).2 = s.setPort s.port.tail := by
  cases h : s.port with
  | nil => rw [takeInput_nil h]; exact State.ext_fields rfl rfl rfl rfl rfl h
  | cons i rest => rw [takeInput_cons h]; rfl

/-- An edge at which something is asked was presented by the host. -/
theorem port_of_edge_ne_idle {s : State} (h : (takeInput s).1.edge ≠ .idle) :
    ∃ rest, s.port = (takeInput s).1 :: rest := by
  cases hp : s.port with
  | nil => rw [takeInput_nil hp] at h; exact absurd rfl h
  | cons i rest => exact ⟨rest, by rw [takeInput_cons hp]⟩

/-- The state after a step, as the effect of the edge taken. -/
theorem eq_of_step {s t : State} (h : step s = .next t) :
    t = effectOfEdge (takeInput s).1.edge (s.setPort s.port.tail) := by
  rw [step_eq, takeInput_snd] at h
  cases h
  rfl

/-- All that an edge can do to the registers: reset, nothing, or, at a command word, ignore it while faulted (R142), have the
effect of the command it decodes to, or raise `ILLEGAL` (R54). -/
theorem effectOfEdge_cases (e : Edge) (s : State) :
    (e = .reset ∧ effectOfEdge e s = applyReset s) ∨
    (e = .idle ∧ effectOfEdge e s = s) ∨
    (∃ w, e = .command w ∧ s.fault ≠ .none ∧ effectOfEdge e s = s) ∨
    (∃ w i, e = .command w ∧ s.fault = .none ∧ decode w = .cmd i ∧ effectOfEdge e s = effectOf i s) ∨
    (∃ w why, e = .command w ∧ s.fault = .none ∧ decode w = .reserved why ∧
      effectOfEdge e s = raiseFault .illegal s) := by
  cases e with
  | reset => exact .inl ⟨rfl, rfl⟩
  | idle => exact .inr (.inl ⟨rfl, rfl⟩)
  | command w =>
    refine .inr (.inr ?_)
    by_cases hf : s.fault = .none
    · have he : effectOfEdge (.command w) s = effectOfWord w s := if_pos hf
      cases hd : decode w with
      | cmd i => exact .inr (.inl ⟨w, i, rfl, hf, hd, by simp [he, effectOfWord, hd]⟩)
      | reserved why => exact .inr (.inr ⟨w, why, rfl, hf, hd, by simp [he, effectOfWord, hd]⟩)
    · exact .inl ⟨w, rfl, hf, if_neg hf⟩

/-- A faulted state is left by reset only (R142, R146). -/
theorem effectOfEdge_of_faulted {e : Edge} {s : State} (he : e ≠ .reset) (hf : s.fault ≠ .none) :
    effectOfEdge e s = s := by
  cases e with
  | reset => exact absurd rfl he
  | command w => exact if_neg hf
  | idle => rfl

/-- A step from a faulted to an unfaulted state takes an edge with `rst == 1` (R22, R146, R170). -/
theorem rst_of_step_clears_fault {s t : State} (hs : s.fault ≠ .none) (h : step s = .next t) (ht : t.fault = .none) :
    ∃ i rest, s.port = i :: rest ∧ i.rst = true := by
  by_cases he : (takeInput s).1.edge = .reset
  · obtain ⟨rest, hp⟩ := port_of_edge_ne_idle (s := s) (by rw [he]; exact Edge.noConfusion)
    exact ⟨_, rest, hp, rst_of_edge_reset he⟩
  · have hst : t = s.setPort s.port.tail := by rw [eq_of_step h]; exact effectOfEdge_of_faulted he hs
    rw [hst] at ht
    exact absurd ht hs

/-- At a presented edge the step is that edge's meaning on the state with the edge taken off. -/
theorem step_eq_execEdge {s : State} {i : PortInput} {rest : List PortInput} (h : s.port = i :: rest) :
    step s = execEdge i.edge (s.setPort rest) := by
  rw [step_cons h, execEdge_eq]

/-- A word that decodes to a command has that command's meaning. -/
theorem execWord_of_cmd {w : CmdWord} {i : Instr} (h : decode w = .cmd i) (s : State) : execWord w s = exec i s := by
  unfold execWord
  rw [h]

/-- At a presented word that decodes to a command the step runs that command (R19, R53). -/
theorem step_of_presentWord {s : State} {w : CmdWord} {i : Instr} {rest : List PortInput}
    (hp : s.port = presentWord w :: rest) (hd : decode w = .cmd i) : step s = exec i (s.setPort rest) := by
  rw [step_eq_execEdge hp, edge_presentWord]
  exact execWord_of_cmd hd _

/-- The word `withFetchWord` presents decodes to the command the table word stands for. -/
theorem decode_of_decodeTableWord {nbits w : Nat} {i : Instr} (h : decodeTableWord nbits w = some i) :
    decode (BitVec.ofNat 12 (w % 2 ^ nbits)) = .cmd i := by
  by_cases hlt : w % 2 ^ nbits < 4096
  · cases hd : decode (BitVec.ofNat 12 (w % 2 ^ nbits)) <;>
      simp_all [decodeTableWord, tableWord, Decoded.instr?]
  · simp [decodeTableWord, tableWord, hlt] at h

@[simp] theorem afterEdges_port (l : List PortInput) (s : State) : (afterEdges l s).port = s.port := by
  induction l generalizing s with
  | nil => rfl
  | cons i l ih => rw [afterEdges_cons, ih, effectOfEdge_port]

/-- Every command's word decodes back to it. -/
@[simp] theorem decode_encode (i : Instr) : decode (encode i) = .cmd i := by
  cases i <;> simp [decode, encode]

@[simp] theorem presentInstrs_length (is : List Instr) : (presentInstrs is).length = is.length := by
  simp [presentInstrs]

/-- In an unfaulted state a presented command has its effect. -/
theorem afterEdges_presentInstrs_cons (i : Instr) (is : List Instr) {s : State} (hf : s.fault = .none) :
    afterEdges (presentInstrs (i :: is)) s = afterEdges (presentInstrs is) (effectOf i s) := by
  have he : effectOfEdge (presentWord (encode i)).edge s = effectOf i s := by
    simp [effectOfEdge, effectOfWord, hf]
  rw [← he]
  rfl

/-- The output `xcnt` shows the count: three bits hold it (R18). -/
theorem outputs_xcnt_toNat (s : State) : s.outputs.xcnt.toNat = s.xcnt.val :=
  (BitVec.toNat_ofNat _ _).trans (Nat.mod_eq_of_lt (s.xcnt.isLt.trans (by decide)))

/-! ### The bytes loaded by `LDX` -/

/-- Below four bytes the count goes up by one (R15). -/
theorem val_add_one_of_ne_four {x : Fin 5} (h : x ≠ 4) : (x + 1).val = x.val + 1 :=
  Fin.val_add_one_of_lt (lt_of_le_of_ne (Fin.le_last x) h)

/-- The number after one more byte, while the register has room for it (R14). -/
theorem shiftInByte_toNat {e : Word} (b : Byte) (h : e.toNat < 2 ^ 24) :
    (shiftInByte e b).toNat = 256 * e.toNat + b.toNat := by
  have hshift : (e <<< 8).toNat = e.toNat <<< 8 := by
    rw [BitVec.toNat_shiftLeft, Nat.shiftLeft_eq]
    exact Nat.mod_eq_of_lt (by omega)
  have hbyte : (zextByte b).toNat = b.toNat := BitVec.toNat_setWidth_of_le (by decide)
  rw [shiftInByte, BitVec.toNat_or, hshift, hbyte, ← Nat.shiftLeft_add_eq_or_of_lt b.isLt, Nat.shiftLeft_eq]
  omega

/-- `k < 4` bytes leave the top byte of `exp` free. -/
theorem lt_two_pow_24_of_count {n k : Nat} (hk : k < 4) (h : n < 2 ^ (8 * k)) : n < 2 ^ 24 :=
  h.trans_le (Nat.pow_le_pow_right (by decide) (by omega))

/-- One more byte of a `k`-byte number gives a number of `k + 1` bytes (R14, R21 item 2). -/
theorem shiftInByte_toNat_lt {e : Word} (b : Byte) {k : Nat} (hk : k < 4) (h : e.toNat < 2 ^ (8 * k)) :
    (shiftInByte e b).toNat < 2 ^ (8 * (k + 1)) := by
  rw [shiftInByte_toNat b (lt_two_pow_24_of_count hk h), Nat.mul_succ, Nat.pow_add]
  have hb := b.isLt
  omega

/-- Bytes shifted in one after the other make the big-endian number, as long as four bytes hold it (R14). -/
theorem foldl_shiftInByte_toNat (bytes : List Byte) {e : Word} {k : Nat} (hk : k + bytes.length ≤ 4)
    (he : e.toNat < 2 ^ (8 * k)) :
    (bytes.foldl shiftInByte e).toNat = bytes.foldl (fun n b => 256 * n + b.toNat) e.toNat ∧
    (bytes.foldl shiftInByte e).toNat < 2 ^ (8 * (k + bytes.length)) := by
  induction bytes generalizing e k with
  | nil => exact ⟨rfl, he⟩
  | cons b bytes ih =>
    rw [List.length_cons] at hk ⊢
    have hk4 : k < 4 := by omega
    have hrest := ih (k := k + 1) (by omega) (shiftInByte_toNat_lt b hk4 he)
    rw [shiftInByte_toNat b (lt_two_pow_24_of_count hk4 he)] at hrest
    rwa [Nat.add_assoc, Nat.add_comm 1] at hrest

/-- Presenting `LDX` of bytes for which there is room shifts them all in, counts them, and writes nothing else (R14, R15,
R110). -/
theorem afterEdges_presentInstrs_ldx (bytes : List Byte) {s : State} (hf : s.fault = .none)
    (hroom : s.xcnt.val + bytes.length < 5) :
    afterEdges (presentInstrs (bytes.map .ldx)) s =
      { s with exp := bytes.foldl shiftInByte s.exp, xcnt := ⟨s.xcnt.val + bytes.length, hroom⟩ } := by
  induction bytes generalizing s with
  | nil => rfl
  | cons b bytes ih =>
    have hlen : (b :: bytes).length = bytes.length + 1 := rfl
    have hx : s.xcnt ≠ 4 := Fin.ne_of_val_ne (by show s.xcnt.val ≠ 4; omega)
    have hval := val_add_one_of_ne_four hx
    rw [List.map_cons, afterEdges_presentInstrs_cons _ _ hf, effectOf_ldx, loadByte_of_room b hx,
      ih (by exact hf) (by simp only [State.setXcnt_xcnt]; omega)]
    refine State.ext_fields rfl rfl (Fin.ext ?_) rfl rfl rfl
    simp only [State.setXcnt_xcnt, hval, hlen]
    omega

/-! ### The register invariant of R21, items 1 to 4 -/

/-- The reset state meets the invariant. -/
theorem inv_reset (l : List PortInput) : State.Inv { State.reset with port := l } :=
  ⟨Nat.zero_le _, by show 0 < 1; decide, Bool.noConfusion, Cause.noConfusion⟩

/-- The invariant speaks of the registers only. -/
theorem inv_setPort {s : State} (h : s.Inv) (l : List PortInput) : (s.setPort l).Inv :=
  ⟨h.xcnt_le, h.exp_lt, h.vok_means, h.checksum_means⟩

/-- A fault other than `CHECKSUM` may be recorded in any state. -/
theorem inv_raiseFault {s : State} {c : Cause} (hc : c ≠ .checksum) (h : s.Inv) : (raiseFault c s).Inv :=
  ⟨h.xcnt_le, h.exp_lt, h.vok_means, fun hf => absurd hf hc⟩

theorem inv_absorbByte {s : State} (b : Byte) (hf : s.fault = .none) (h : s.Inv) : (absorbByte b s).Inv :=
  ⟨h.xcnt_le, h.exp_lt, Bool.noConfusion, fun hc => absurd (hf.symm.trans hc) Cause.noConfusion⟩

/-- `vok` is 0 until four bytes are loaded. -/
theorem vok_of_room {s : State} (h : s.Inv) (hx : s.xcnt ≠ 4) : s.vok = false :=
  Bool.eq_false_iff.2 fun hv => hx (h.vok_means hv).1

/-- `vok` is 0 while the checksum does not match. -/
theorem vok_of_mismatch {s : State} (h : s.Inv) (hm : s.crcOut ≠ s.exp) : s.vok = false :=
  Bool.eq_false_iff.2 fun hv => hm (h.vok_means hv).2

theorem inv_loadByte {s : State} (b : Byte) (hf : s.fault = .none) (h : s.Inv) : (loadByte b s).Inv := by
  obtain ⟨-, heq⟩ | ⟨hx, heq⟩ := loadByte_cases b s
  · rw [heq]
    exact inv_raiseFault Cause.noConfusion h
  · rw [heq]
    have hval := val_add_one_of_ne_four hx
    have hlt : s.xcnt.val < 4 := by have := (s.xcnt + 1).is_le; omega
    constructor
    · exact (s.xcnt + 1).is_le
    · simpa [hval] using shiftInByte_toNat_lt b hlt h.exp_lt
    · intro hv
      exact absurd ((vok_of_room h hx).symm.trans hv) Bool.noConfusion
    · intro hc
      exact absurd (hf.symm.trans hc) Cause.noConfusion

theorem inv_compareChecksum {s : State} (hf : s.fault = .none) (h : s.Inv) : (compareChecksum s).Inv := by
  obtain ⟨-, heq⟩ | ⟨hx, hm, heq⟩ | ⟨hx, hm, heq⟩ := compareChecksum_cases s
  · rw [heq]
    exact inv_raiseFault Cause.noConfusion h
  · rw [heq]
    exact ⟨h.xcnt_le, h.exp_lt, fun _ => ⟨hx, hm⟩, fun hc => absurd (hf.symm.trans hc) Cause.noConfusion⟩
  · rw [heq]
    exact ⟨h.xcnt_le, h.exp_lt, h.vok_means, fun _ => ⟨hx, hm, vok_of_mismatch (s := s) h hm⟩⟩

/-- Every command keeps the invariant. -/
theorem inv_effectOf (i : Instr) {s : State} (hf : s.fault = .none) (h : s.Inv) : (effectOf i s).Inv := by
  cases i with
  | nop => exact h
  | init =>
    have heq : clearMessage s = { State.reset with port := s.port } :=
      State.ext_fields rfl rfl rfl rfl hf rfl
    rw [effectOf_init, heq]
    exact inv_reset _
  | upd b => exact inv_absorbByte b hf h
  | ldx b => exact inv_loadByte b hf h
  | vfy => exact inv_compareChecksum hf h

/-- Executing a command keeps the invariant, faulted or not. -/
theorem inv_exec {i : Instr} {s t : State} (hs : s.Inv) (h : exec i s = .next t) : t.Inv := by
  obtain ⟨hf, rfl⟩ | ⟨-, rfl⟩ := exec_cases h
  · exact inv_effectOf i hf hs
  · exact hs

/-- Every edge keeps the invariant. -/
theorem inv_effectOfEdge (e : Edge) {s : State} (h : s.Inv) : (effectOfEdge e s).Inv := by
  obtain ⟨-, heq⟩ | ⟨-, heq⟩ | ⟨w, -, -, heq⟩ | ⟨w, i, -, hf, -, heq⟩ | ⟨w, why, -, -, -, heq⟩ :=
    effectOfEdge_cases e s
  · rw [heq, applyReset_eq]
    exact inv_reset _
  · rwa [heq]
  · rwa [heq]
  · rw [heq]
    exact inv_effectOf i hf h
  · rw [heq]
    exact inv_raiseFault Cause.noConfusion h

/-! ### The history of the inputs, R21 item 5 -/

@[simp] theorem crcRegister_append_singleton (m : List Byte) (b : Byte) :
    crcRegister (m ++ [b]) = bytestep (crcRegister m) b := by
  simp [crcRegister]

@[simp] theorem loadedValue_append_singleton (m : List Byte) (b : Byte) :
    loadedValue (m ++ [b]) = shiftInByte (loadedValue m) b := by
  simp [loadedValue]

/-- Where `crc` is the register of a message, `crc_out` is its checksum (R18, R75). -/
theorem crcOut_of_crc {s : State} {m : List Byte} (h : s.crc = crcRegister m) : s.crcOut = crc32 m := by
  rw [State.crcOut, h, crc32]

theorem historyNext_of_reset {i : PortInput} (h : History) (he : i.edge = .reset) : h.next i = .empty := by
  simp [History.next, he]

theorem historyNext_of_idle {i : PortInput} (h : History) (he : i.edge = .idle) : h.next i = h := by
  simp [History.next, he]

theorem historyNext_of_cmd {i : PortInput} {w : CmdWord} {c : Instr} (h : History) (he : i.edge = .command w)
    (hd : decode w = .cmd c) : h.next i = h.onInstr c := by
  simp [History.next, History.onWord, he, hd]

/-- The reset state tracks the empty history. -/
theorem tracks_reset (l : List PortInput) : State.Tracks { State.reset with port := l } .empty :=
  fun _ => ⟨rfl, rfl, rfl⟩

theorem tracks_setPort {s : State} {h : History} (hs : s.Tracks h) (l : List PortInput) : (s.setPort l).Tracks h := hs

/-- In a faulted state there is nothing to track. -/
theorem tracks_of_faulted {s : State} (hf : s.fault ≠ .none) (h : History) : s.Tracks h := fun hn => absurd hn hf

/-- Every command keeps track of the history it extends. -/
theorem tracks_effectOf (i : Instr) {s : State} {h : History} (hf : s.fault = .none) (hs : s.Tracks h) :
    (effectOf i s).Tracks (h.onInstr i) := by
  obtain ⟨hcrc, hexp, hxcnt⟩ := hs hf
  cases i with
  | nop => exact hs
  | init => exact fun _ => ⟨rfl, rfl, rfl⟩
  | upd b => exact fun _ => ⟨by simp [History.onInstr, hcrc], hexp, hxcnt⟩
  | ldx b =>
    obtain ⟨-, heq⟩ | ⟨hx, heq⟩ := loadByte_cases b s
    · rw [effectOf_ldx, heq]
      exact tracks_of_faulted Cause.noConfusion _
    · rw [effectOf_ldx, heq]
      refine fun _ => ⟨hcrc, by simp [History.onInstr, hexp], ?_⟩
      simp [History.onInstr, val_add_one_of_ne_four hx, hxcnt]
  | vfy => exact fun _ => by simp [History.onInstr, hcrc, hexp, hxcnt]

/-- Every edge keeps track of the history it extends. -/
theorem tracks_effectOfEdge (i : PortInput) {s : State} {h : History} (hs : s.Tracks h) :
    (effectOfEdge i.edge s).Tracks (h.next i) := by
  obtain ⟨he, heq⟩ | ⟨he, heq⟩ | ⟨w, he, hf, heq⟩ | ⟨w, c, he, hf, hd, heq⟩ | ⟨w, why, he, hf, hd, heq⟩ :=
    effectOfEdge_cases i.edge s
  · rw [heq, historyNext_of_reset h he, applyReset_eq]
    exact tracks_reset _
  · rwa [heq, historyNext_of_idle h he]
  · rw [heq]
    exact tracks_of_faulted hf _
  · rw [heq, historyNext_of_cmd h he hd]
    exact tracks_effectOf c hf hs
  · rw [heq]
    exact tracks_of_faulted Cause.noConfusion _

/-- Any list of edges keeps track of the history it extends. -/
theorem tracks_afterEdges (l : List PortInput) {s : State} {h : History} (hs : s.Tracks h) :
    (afterEdges l s).Tracks (l.foldl History.next h) := by
  induction l generalizing s h with
  | nil => exact hs
  | cons i l ih => exact ih (tracks_effectOfEdge i hs)

/-! ### Where `vok` can rise -/

/-- Only `VFY` on a match takes `vok` from 0 to 1 (R16). -/
theorem effectOf_vok_rises {i : Instr} {s : State} (hs : s.vok = false) (ht : (effectOf i s).vok = true) :
    i = .vfy ∧ s.xcnt = 4 ∧ s.crcOut = s.exp := by
  cases i with
  | nop => simp [hs] at ht
  | init => simp at ht
  | upd b => simp at ht
  | ldx b => simp [hs] at ht
  | vfy =>
    obtain ⟨-, heq⟩ | ⟨hx, hm, -⟩ | ⟨-, -, heq⟩ := compareChecksum_cases s
    · simp [heq, hs] at ht
    · exact ⟨rfl, hx, hm⟩
    · simp [heq, hs] at ht

/-- An edge that takes `vok` from 0 to 1 is a command word that decodes to `VFY`, in an unfaulted state that matches. -/
theorem effectOfEdge_vok_rises {e : Edge} {s : State} (hs : s.vok = false) (ht : (effectOfEdge e s).vok = true) :
    (∃ w, e = .command w ∧ decode w = .cmd .vfy) ∧ s.fault = .none ∧ s.xcnt = 4 ∧ s.crcOut = s.exp := by
  obtain ⟨-, heq⟩ | ⟨-, heq⟩ | ⟨w, -, -, heq⟩ | ⟨w, i, he, hf, hd, heq⟩ | ⟨w, why, -, -, -, heq⟩ :=
    effectOfEdge_cases e s
  · rw [heq] at ht
    exact Bool.noConfusion ht
  · simp [heq, hs] at ht
  · simp [heq, hs] at ht
  · rw [heq] at ht
    obtain ⟨rfl, hx, hm⟩ := effectOf_vok_rises hs ht
    exact ⟨⟨w, he, hd⟩, hf, hx, hm⟩
  · simp [heq, hs] at ht

/-- A `VFY` after which a fault is recorded has not written `vok`. -/
theorem vok_of_faulting_vfy {s t : State} (h : exec .vfy s = .next t) (ht : t.fault ≠ .none) : t.vok = s.vok := by
  obtain ⟨hf, rfl⟩ | ⟨-, rfl⟩ := exec_cases h
  · obtain ⟨-, heq⟩ | ⟨-, -, heq⟩ | ⟨-, -, heq⟩ := compareChecksum_cases s
    · simp [heq]
    · simp [heq, hf] at ht
    · simp [heq]
  · rfl

/-! ### The obligations, tier 3 -/

/-- Settles O25: every edge keeps the invariant, case by case over the commands. -/
theorem stepKeepsTheRegisterInvariant : Obligations.StepKeepsTheRegisterInvariant := by
  intro s t hs h
  rw [eq_of_step h]
  exact inv_effectOfEdge _ (inv_setPort hs _)

/-- Settles O27: every edge keeps track of the history, case by case over the commands. -/
theorem stepKeepsTrackOfTheHistory : Obligations.StepKeepsTrackOfTheHistory := by
  intro s t h hs hstep
  rw [eq_of_step hstep]
  exact tracks_effectOfEdge _ (tracks_setPort hs _)

/-! ### The obligations, tier 2 -/

/-- Settles O18, command by command. -/
theorem commandsWriteOnlyTheirRegisters : Obligations.CommandsWriteOnlyTheirRegisters := by
  intro i s t h
  obtain ⟨-, rfl⟩ | ⟨-, rfl⟩ := exec_cases h
  · refine ⟨effectOf_port i s, ?_⟩
    cases i with
    | nop => simp
    | init => simp
    | upd b => simp
    | ldx b => simp
    | vfy => simp
  · simp

/-- Settles O20: the rise is `effectOfEdge_vok_rises`; the other clauses are what each command writes. -/
theorem vokRisesOnlyOnAMatch : Obligations.VokRisesOnlyOnAMatch := by
  refine ⟨?rise, ?matching, ?init, ?upd, ?reset, ?ldx, ?nop, ?faulting, ?checksum⟩
  case rise =>
    intro s t h hs ht
    rw [eq_of_step h] at ht
    obtain ⟨⟨w, he, hd⟩, hf, hx, hm⟩ := effectOfEdge_vok_rises (by exact hs) ht
    obtain ⟨rest, hp⟩ := port_of_edge_ne_idle (s := s) (by rw [he]; exact Edge.noConfusion)
    obtain ⟨hr, hv, rfl⟩ := pins_of_edge_command he
    exact ⟨hf, hx, hm, _, rest, hp, hr, hv, hd⟩
  case matching =>
    intro s hf hx hm
    rw [exec_of_none _ hf, effectOf_vfy, compareChecksum_of_match hx hm]
    rfl
  case init =>
    intro s t hf h
    rw [eq_of_exec hf h]
    rfl
  case upd =>
    intro s t b hf h
    rw [eq_of_exec hf h]
    rfl
  case reset =>
    intro s t i rest hp hr h
    rw [step_cons hp, edge_of_rst hr] at h
    cases h
    rfl
  case ldx =>
    intro s t b h
    obtain ⟨-, rfl⟩ | ⟨-, rfl⟩ := exec_cases h
    · exact loadByte_vok b s
    · rfl
  case nop =>
    intro s t h
    obtain ⟨-, rfl⟩ | ⟨-, rfl⟩ := exec_cases h <;> rfl
  case faulting => exact fun s t h ht => vok_of_faulting_vfy h ht
  case checksum =>
    intro s t hs h hc
    obtain ⟨-, -, hv⟩ := (inv_exec hs h).checksum_means hc
    exact hv

/-- Settles O29: the history is tracked along the whole run from reset. -/
theorem crcOutIsTheChecksumOfTheMessage : Obligations.CrcOutIsTheChecksumOfTheMessage := by
  intro l t h hf
  rw [run_edges l [] _ (List.append_nil l).symm] at h
  cases h
  obtain ⟨hcrc, hexp, hxcnt⟩ := tracks_afterEdges l (tracks_reset []) hf
  exact ⟨hcrc, crcOut_of_crc hcrc, hexp, hxcnt, afterEdges_port l _⟩

/-- Settles O30: the run shifts all bytes in, and what is shifted into a zero `exp` is the big-endian number. -/
theorem expIsTheBigEndianNumber : Obligations.ExpIsTheBigEndianNumber := by
  intro s bytes rest hf hx he hlen hp
  have hx0 : s.xcnt.val = 0 := congrArg Fin.val hx
  have hroom : s.xcnt.val + bytes.length < 5 := by omega
  have hrun := run_edges _ rest s hp
  rw [presentInstrs_length, List.length_map, afterEdges_presentInstrs_ldx (s := s.setPort rest) bytes hf hroom] at hrun
  obtain ⟨hnum, hlt⟩ := foldl_shiftInByte_toNat bytes (e := 0) (k := 0) (by omega) (by decide)
  rw [← he] at hnum hlt
  refine ⟨_, hrun, by simpa [he] using hnum, by simpa using hlt, ?_, rfl, rfl, hf, rfl⟩
  show s.xcnt.val + bytes.length = bytes.length
  omega

/-! ### The obligations, tier 1 -/

/-- Settles O6, by the three kinds of edge. -/
theorem clockEdgeContract : Obligations.ClockEdgeContract := by
  refine ⟨?reset, ?command, ?idle, fun s => rfl⟩
  case reset =>
    intro s i rest hp hr
    rw [step_cons hp, edge_of_rst hr]
    rfl
  case command =>
    intro s i rest hp hr hv
    rw [step_eq_execEdge hp, edge_of_valid hr hv]
    rfl
  case idle =>
    intro s i rest hp hr hv
    rw [step_cons hp, edge_of_invalid hr hv]
    rfl

/-- Settles O7: an empty list and an edge without a command both leave the registers. -/
theorem nothingPresentedIsAnIdleEdge : Obligations.NothingPresentedIsAnIdleEdge := by
  intro s w hp
  refine ⟨step_nil hp, ?_⟩
  rw [step_cons rfl, edge_of_invalid rfl rfl]
  exact congrArg _ (State.ext_fields rfl rfl rfl rfl rfl hp.symm)

/-- Settles O8: both ways of presenting a word put it at the next edge. -/
theorem stepRunsTheDecodedCommand : Obligations.StepRunsTheDecodedCommand := by
  constructor
  · exact fun s w i rest hp hd => step_of_presentWord hp hd
  · exact fun s nbits w i h => step_of_presentWord (rest := s.port) rfl (decode_of_decodeTableWord h)

/-- Settles O11: only an edge with `rst == 1` clears `fault` (`rst_of_step_clears_fault`). -/
theorem resetStateIsAsSpecified : Obligations.ResetStateIsAsSpecified := by
  refine ⟨rfl, rfl, rfl, rfl, rfl, by decide, crcOut_of_crc rfl, ?_, fun s t hs h ht => rst_of_step_clears_fault hs h ht⟩
  intro b
  exact ⟨absorbByte b State.reset, exec_of_none (.upd b) rfl, rfl, crcOut_of_crc rfl⟩

/-- Settles O21, register by register. -/
theorem outputsShowTheRegisters : Obligations.OutputsShowTheRegisters := by
  constructor
  · intro s
    have hx := outputs_xcnt_toNat s
    refine ⟨rfl, hx, hx ▸ s.xcnt.is_le, ?_, ?_, rfl⟩
    · cases hv : s.vok <;> simp [State.outputs, hv]
    · cases hv : s.vok <;> simp [State.outputs, hv]
  · intro s
    cases hc : s.fault <;> simp [State.outputs, Cause.code, hc]

/-- Settles O26: `inv_reset` is the base case of O25. -/
theorem resetMeetsTheRegisterInvariant : Obligations.ResetMeetsTheRegisterInvariant := inv_reset

/-- Settles O28: `tracks_reset` is the base case of O27. -/
theorem resetTracksTheEmptyHistory : Obligations.ResetTracksTheEmptyHistory := tracks_reset

end Sys2Proof.Machine
end

section
/-! Family 20_memory: a run as the effects of the edges it takes, whatever the host presents later (R38); the four bytes of a `u32`
(R32); commands run twice (R35). Lemmas first, then the obligations. -/

namespace Sys2Proof.Machine

/-! ### A run and the edges it takes (R38) -/

/-- `n` edges have the effects of the first `n` inputs the host presents; where it presents fewer, the rest are idle. -/
theorem run_eq_afterEdges_take (n : Nat) (s : State) :
    Host.Core.run core n s = .next (afterEdges (s.port.take n) (s.setPort (s.port.drop n))) := by
  induction n generalizing s with
  | zero => rfl
  | succ n ih =>
    rw [run_succ, ih, effectOfEdge_port]
    cases hp : s.port with
    | nil => simp [hp, effectOfEdge]
    | cons i rest => rw [takeInput_cons hp, ← effectOfEdge_setPort]; rfl

/-- Whatever the host presents later, edges have the same effect on the registers. -/
theorem afterEdges_setPort (l k : List PortInput) (s : State) :
    afterEdges l (s.setPort k) = (afterEdges l s).setPort k := by
  induction l generalizing s with
  | nil => rfl
  | cons i l ih => rw [afterEdges_cons, effectOfEdge_setPort, ih, afterEdges_cons]

/-- What the host presents is no register. -/
theorem sameRegs_setPort (s : State) (k : List PortInput) : s.sameRegs (s.setPort k) := ⟨rfl, rfl, rfl, rfl, rfl⟩

/-- Only what the host presents can differ between states with the same registers. -/
theorem setPort_port_of_sameRegs {s s' : State} (h : s.sameRegs s') : s.setPort s'.port = s' := by
  obtain ⟨hcrc, hexp, hxcnt, hvok, hfault⟩ := h
  exact State.ext_fields hcrc hexp hxcnt hvok hfault rfl

/-- The same edges take equal registers to equal registers. -/
theorem sameRegs_afterEdges (l : List PortInput) {s s' : State} (h : s.sameRegs s') :
    (afterEdges l s).sameRegs (afterEdges l s') := by
  rw [← setPort_port_of_sameRegs h, afterEdges_setPort]
  exact sameRegs_setPort _ _

/-! ### The four bytes of a number (R32) -/

/-- A byte shifted in stands to the right of the bits already there. -/
theorem shiftInByte_setWidth {n : Nat} (x : BitVec n) (b : Byte) :
    shiftInByte (x.setWidth 32) b = (x ++ b).setWidth 32 :=
  BitVec.setWidth_append_eq_shiftLeft_setWidth_or.symm

/-- Four loaded bytes are the concatenation, the first one on top (R14). -/
theorem loadedValue_four (b0 b1 b2 b3 : Byte) : loadedValue [b0, b1, b2, b3] = b0 ++ b1 ++ b2 ++ b3 := by
  have hfirst : shiftInByte 0 b0 = b0.setWidth 32 := by simp [shiftInByte, zextByte]
  calc loadedValue [b0, b1, b2, b3]
      = shiftInByte (shiftInByte (shiftInByte (shiftInByte 0 b0) b1) b2) b3 := rfl
    _ = (b0 ++ b1 ++ b2 ++ b3).setWidth 32 := by rw [hfirst]; simp only [shiftInByte_setWidth]
    _ = b0 ++ b1 ++ b2 ++ b3 := BitVec.setWidth_eq _

/-- The lowest byte is the one appended last. (The library's lemma, in a form that `simp` finds at literal widths.) -/
@[simp] theorem extractLsb'_append_byte_zero {n : Nat} (x : BitVec n) (b : Byte) : (x ++ b).extractLsb' 0 8 = b :=
  BitVec.extractLsb'_append_eq_right

/-- Above it stand the bytes that were there before. -/
@[simp] theorem extractLsb'_append_byte_add {n : Nat} (x : BitVec n) (b : Byte) (k : Nat) :
    (x ++ b).extractLsb' (k + 8) 8 = x.extractLsb' k 8 :=
  BitVec.extractLsb'_append_eq_of_le (Nat.le_add_left 8 k)

/-- The bytes of a concatenation of four bytes are these bytes (R32). -/
theorem be4_append (b0 b1 b2 b3 : Byte) : be4 (b0 ++ b1 ++ b2 ++ b3) = [b0, b1, b2, b3] := by
  simp [be4]

/-- The bytes of a number, concatenated again, are the number. -/
theorem append_bytes_eq (v : Word) :
    v.extractLsb' 24 8 ++ v.extractLsb' 16 8 ++ v.extractLsb' 8 8 ++ v.extractLsb' 0 8 = v := by
  rw [BitVec.extractLsb'_append_extractLsb'_eq_extractLsb' (show 24 = 16 + 8 from rfl),
    BitVec.extractLsb'_append_extractLsb'_eq_extractLsb' (show 16 = 8 + 8 from rfl),
    BitVec.extractLsb'_append_extractLsb'_eq_extractLsb' (show 8 = 0 + 8 from rfl)]
  exact BitVec.extractLsb'_eq_self

/-- Loading the bytes of a number gives the number (R14, R32). -/
theorem loadedValue_be4 (v : Word) : loadedValue (be4 v) = v :=
  (loadedValue_four _ _ _ _).trans (append_bytes_eq v)

/-- The bytes of the number loaded from four bytes are these bytes (R32). -/
theorem be4_loadedValue {c : List Byte} (h : c.length = 4) : be4 (loadedValue c) = c := by
  obtain ⟨b0, b1, b2, b3, rfl⟩ := List.length_eq_four.1 h
  rw [loadedValue_four, be4_append]

/-! ### A command run again (R35) -/

/-- A faulted state ignores every command (R142). -/
theorem exec_of_faulted (i : Instr) {s : State} (h : s.fault ≠ .none) : exec i s = .next s := by
  rw [exec_eq, unlessFaulted_of_faulted _ h]

/-- A command whose effect changes nothing changes nothing, faulted or not. -/
theorem exec_eq_self {i : Instr} {s : State} (h : effectOf i s = s) : exec i s = .next s := by
  by_cases hf : s.fault = .none
  · rw [exec_of_none i hf, h]
  · exact exec_of_faulted i hf

/-- A byte for which there is room raises no fault and is counted (R110). -/
theorem loadByte_of_lt_four (b : Byte) {s : State} (h : s.xcnt.val < 4) :
    (loadByte b s).fault = s.fault ∧ (loadByte b s).xcnt.val = s.xcnt.val + 1 := by
  have hx : s.xcnt ≠ 4 := Fin.ne_of_val_ne h.ne
  rw [loadByte_of_room b hx]
  exact ⟨rfl, val_add_one_of_ne_four hx⟩

/-- A `VFY` after which `fault` is 0 found a match and wrote nothing but `vok` (R111). -/
theorem match_of_unfaulted_vfy {s t : State} (h : exec .vfy s = .next t) (ht : t.fault = .none) :
    s.xcnt = 4 ∧ s.crcOut = s.exp ∧ t = s.setVok true := by
  obtain ⟨-, rfl⟩ | ⟨hf, rfl⟩ := exec_cases h
  · obtain ⟨-, heq⟩ | hmatch | ⟨-, -, heq⟩ := compareChecksum_cases s
    · simp [heq] at ht
    · exact hmatch
    · simp [heq] at ht
  · exact absurd ht hf

/-! ### The obligations, tier 2 -/

/-- Settles O10: both runs are the effects of the same `n` edges. -/
theorem registersDependOnPresentedEdgesOnly : Obligations.RegistersDependOnPresentedEdgesOnly := by
  intro n s s' t t' hregs hport ht ht'
  rw [run_eq_afterEdges_take] at ht ht'
  cases ht
  cases ht'
  rw [hport]
  exact sameRegs_afterEdges _ hregs

/-- Settles O46: `loadedValue` of four bytes is their concatenation, and `be4` cuts a concatenation back into its bytes. -/
theorem checksumTravelsBigEndian : Obligations.ChecksumTravelsBigEndian :=
  ⟨fun _ => rfl, fun b0 b1 b2 b3 => ⟨be4_append b0 b1 b2 b3, loadedValue_four b0 b1 b2 b3⟩, loadedValue_be4,
    fun _ => be4_loadedValue, fun _ _ _ => rfl, by decide⟩

/-! ### The obligations, tier 1 -/

/-- Settles O19: the effects of `NOP`, `INIT` and a matching `VFY` change nothing in the state they end in; `UPD` and `LDX` run
twice have their effects one after the other. -/
theorem nopInitVfyAreIdempotent : Obligations.NopInitVfyAreIdempotent := by
  refine ⟨?nop, ?init, ?vfy, ?upd, ?ldx⟩
  case nop => exact fun s t _ => exec_eq_self (effectOf_nop t)
  case init =>
    intro s t h
    obtain ⟨-, rfl⟩ | ⟨hf, rfl⟩ := exec_cases h
    · exact exec_eq_self rfl
    · exact exec_of_faulted _ hf
  case vfy =>
    intro s t h _ ht
    obtain ⟨hx, hm, rfl⟩ := match_of_unfaulted_vfy h ht
    exact exec_eq_self (compareChecksum_of_match (s := s.setVok true) hx hm)
  case upd =>
    intro s t u b m hf hcrc ht hu
    obtain rfl := eq_of_exec hf ht
    obtain rfl := eq_of_exec (by exact hf) hu
    simp [crcRegister, hcrc]
  case ldx =>
    intro s t u b hf hx ht hu
    obtain ⟨hf1, hx1⟩ := loadByte_of_lt_four b (show s.xcnt.val < 4 by omega)
    obtain rfl := eq_of_exec hf ht
    obtain rfl := eq_of_exec (hf1.trans hf) hu
    obtain ⟨-, hx2⟩ := loadByte_of_lt_four b (show (loadByte b s).xcnt.val < 4 by omega)
    exact hx2.trans (congrArg (· + 1) hx1)

end Sys2Proof.Machine
end

section
/-! Family 30_encoding, the encoding: the decoder in the form of R53, one lemma per row; that it inverts the encoder; which words
are reserved (R54); the rows of the opcode map (R52). Lemmas first, then the obligations. -/

namespace Sys2Proof.Machine

/-! ### The decoder, row by row (R53) -/

theorem decode_of_op_zero {w : CmdWord} (h : opField w = 0) :
    decode w = if immField w = 0 then .cmd .nop else .reserved (.operandNotZero 0 (immField w)) := by
  simp [decode, h]

theorem decode_of_op_one {w : CmdWord} (h : opField w = 1) :
    decode w = if immField w = 0 then .cmd .init else .reserved (.operandNotZero 1 (immField w)) := by
  simp [decode, h]

theorem decode_of_op_two {w : CmdWord} (h : opField w = 2) : decode w = .cmd (.upd (immField w)) := by
  simp [decode, h]

theorem decode_of_op_three {w : CmdWord} (h : opField w = 3) : decode w = .cmd (.ldx (immField w)) := by
  simp [decode, h]

theorem decode_of_op_four {w : CmdWord} (h : opField w = 4) :
    decode w = if immField w = 0 then .cmd .vfy else .reserved (.operandNotZero 4 (immField w)) := by
  simp [decode, h]

/-- The values of `op`: of `UPD`, of `LDX`, an unused one, or of a command without operand. -/
theorem op_cases (op : BitVec 4) : op = 2 ∨ op = 3 ∨ 5 ≤ op.toNat ∨ (op = 0 ∨ op = 1 ∨ op = 4) := by
  revert op; decide

theorem decode_of_op_unused {w : CmdWord} (h : 5 ≤ (opField w).toNat) :
    decode w = .reserved (.unusedOpcode (opField w) (immField w)) := by
  have hne (op : BitVec 4) (hop : op.toNat < 5) : opField w ≠ op := fun heq => by rw [heq] at h; omega
  simp only [decode, hne 0 (by decide), hne 1 (by decide), hne 2 (by decide), hne 3 (by decide), hne 4 (by decide), if_false]

/-- A word of `NOP`, `INIT` or `VFY` with an operand is reserved (R54). -/
theorem decode_of_operand {w : CmdWord} (hop : opField w = 0 ∨ opField w = 1 ∨ opField w = 4) (himm : immField w ≠ 0) :
    decode w = .reserved (.operandNotZero (opField w) (immField w)) := by
  obtain h | h | h := hop
  · rw [decode_of_op_zero h, if_neg himm, h]
  · rw [decode_of_op_one h, if_neg himm, h]
  · rw [decode_of_op_four h, if_neg himm, h]

/-- All that decoding can answer: a command whose word this is, or `RESERVED` for an operand or an opcode of R54. -/
theorem decode_cases (w : CmdWord) :
    (∃ i, decode w = .cmd i ∧ encode i = w) ∨
    ((opField w = 0 ∨ opField w = 1 ∨ opField w = 4) ∧ immField w ≠ 0 ∧ ∃ why, decode w = .reserved why) ∨
    (5 ≤ (opField w).toNat ∧ ∃ why, decode w = .reserved why) := by
  have hword {op : BitVec 4} {imm8 : Byte} (hop : opField w = op) (himm : immField w = imm8) : formatC op imm8 = w := by
    rw [← hop, ← himm, formatC_fields]
  obtain h | h | h | hop := op_cases (opField w)
  · exact .inl ⟨_, decode_of_op_two h, hword h rfl⟩
  · exact .inl ⟨_, decode_of_op_three h, hword h rfl⟩
  · exact .inr (.inr ⟨h, _, decode_of_op_unused h⟩)
  · by_cases himm : immField w = 0
    · obtain h | h | h := hop
      · exact .inl ⟨.nop, by rw [decode_of_op_zero h, if_pos himm], hword h himm⟩
      · exact .inl ⟨.init, by rw [decode_of_op_one h, if_pos himm], hword h himm⟩
      · exact .inl ⟨.vfy, by rw [decode_of_op_four h, if_pos himm], hword h himm⟩
    · exact .inr (.inl ⟨hop, himm, _, decode_of_operand hop himm⟩)

/-- A word that decodes to a command is that command's word. -/
theorem encode_of_decode {w : CmdWord} {i : Instr} (h : decode w = .cmd i) : encode i = w := by
  obtain ⟨j, hj, hw⟩ | ⟨-, -, why, hr⟩ | ⟨-, why, hr⟩ := decode_cases w
  · cases hj.symm.trans h
    exact hw
  · cases hr.symm.trans h
  · cases hr.symm.trans h

/-! ### The reserved words (R54) -/

/-- A word's number is `256 * op + imm8` (R51). -/
theorem toNat_eq_fields (w : CmdWord) : w.toNat = 256 * (opField w).toNat + (immField w).toNat := by
  simp only [opField, immField, BitVec.extractLsb'_toNat, Nat.shiftRight_eq_div_pow]
  omega

/-- R54's table by its numbers. -/
theorem reservedWord_iff_range (w : CmdWord) :
    reservedWord w = true ↔
      (0x001 ≤ w.toNat ∧ w.toNat ≤ 0x0FF) ∨ (0x101 ≤ w.toNat ∧ w.toNat ≤ 0x1FF) ∨
      (0x401 ≤ w.toNat ∧ w.toNat ≤ 0x4FF) ∨ (0x500 ≤ w.toNat ∧ w.toNat ≤ 0xFFF) := by
  simp [reservedWord, or_assoc]

/-- A command's word stands in none of R54's rows. -/
theorem reservedWord_encode (i : Instr) : reservedWord (encode i) = false := by
  rw [← Bool.not_eq_true, reservedWord_iff_range, toNat_eq_fields]
  cases i with
  | nop => decide
  | init => decide
  | vfy => decide
  | upd b =>
    have hb := b.isLt
    simp [encode]
    omega
  | ldx b =>
    have hb := b.isLt
    simp [encode]
    omega

/-- The words of R54's table are exactly those that decode to `RESERVED`. -/
theorem reservedWord_iff_decode (w : CmdWord) : reservedWord w = true ↔ ∃ why, decode w = .reserved why := by
  have himm := (immField w).isLt
  have hw := w.isLt
  obtain ⟨i, hi, rfl⟩ | ⟨hop, hne, hwhy⟩ | ⟨hop, hwhy⟩ := decode_cases w
  · simp [reservedWord_encode]
  · have hpos : (immField w).toNat ≠ 0 := fun h => hne (BitVec.eq_of_toNat_eq h)
    have hopn : (opField w).toNat = 0 ∨ (opField w).toNat = 1 ∨ (opField w).toNat = 4 :=
      hop.imp (congrArg BitVec.toNat) (Or.imp (congrArg BitVec.toNat) (congrArg BitVec.toNat))
    refine iff_of_true ?_ hwhy
    rw [reservedWord_iff_range, toNat_eq_fields]
    omega
  · refine iff_of_true ?_ hwhy
    rw [reservedWord_iff_range, toNat_eq_fields]
    rw [toNat_eq_fields] at hw
    omega

/-- A word is reserved exactly when it decodes to no command. -/
theorem isSome_instr?_decode (w : CmdWord) : (decode w).instr?.isSome = !reservedWord w := by
  cases h : decode w with
  | cmd i => rw [← encode_of_decode h, reservedWord_encode]; rfl
  | reserved why => rw [(reservedWord_iff_decode w).2 ⟨why, h⟩]; rfl

/-- The words that select a command: `NOP`, `INIT`, `VFY` and the 512 of `UPD` and `LDX` (R52). -/
def commandWords : Finset Nat := {0x000, 0x100, 0x400} ∪ Finset.Ico 0x200 0x400

theorem mem_commandWords {n : Nat} (h : n < 4096) : n ∈ commandWords ↔ reservedWord (BitVec.ofNat 12 n) = false := by
  rw [← Bool.not_eq_true, reservedWord_iff_range, BitVec.toNat_ofNat, Nat.mod_eq_of_lt h]
  simp only [commandWords, Finset.mem_union, Finset.mem_insert, Finset.mem_singleton, Finset.mem_Ico]
  omega

theorem card_commandWords : commandWords.card = 515 := by
  rw [commandWords, Finset.card_union_of_disjoint (by simp [Finset.disjoint_left])]
  simp

theorem length_filter_not_reserved :
    ((List.range 4096).filter (fun n => !reservedWord (BitVec.ofNat 12 n))).length = 515 := by
  rw [← card_commandWords, ← List.toFinset_card_of_nodup (List.nodup_range.filter _)]
  refine congrArg Finset.card (Finset.ext fun n => ?_)
  simp only [List.mem_toFinset, List.mem_filter, List.mem_range, Bool.not_eq_true']
  constructor
  · exact fun ⟨hn, h⟩ => (mem_commandWords hn).2 h
  · intro h
    have hn : n < 4096 := by
      simp only [commandWords, Finset.mem_union, Finset.mem_insert, Finset.mem_singleton, Finset.mem_Ico] at h
      omega
    exact ⟨hn, (mem_commandWords hn).1 h⟩

/-- The other words are reserved. -/
theorem length_filter_reserved :
    ((List.range 4096).filter (fun n => reservedWord (BitVec.ofNat 12 n))).length = 3581 := by
  have h := List.length_eq_length_filter_add (l := List.range 4096) (fun n => reservedWord (BitVec.ofNat 12 n))
  rw [length_filter_not_reserved, List.length_range] at h
  omega

/-- A reserved word executed in an unfaulted state raises `ILLEGAL` (R54). -/
theorem execWord_of_reserved {w : CmdWord} {s : State} (hf : s.fault = .none) {why : Reserved}
    (h : decode w = .reserved why) : execWord w s = .next (raiseFault .illegal s) := by
  rw [execWord_eq, unlessFaulted_of_none _ hf, effectOfWord, h]

/-- A faulted state ignores every word (R142). -/
theorem execWord_of_faulted (w : CmdWord) {s : State} (hf : s.fault ≠ .none) : execWord w s = .next s := by
  rw [execWord_eq, unlessFaulted_of_faulted _ hf]

/-! ### The rows of the opcode map (R52) -/

/-- A row with all mask bits set is selected by its pattern alone. -/
theorem selects_full_mask (m : String) (p w : CmdWord) : OpcodeRow.selects ⟨m, p, 0xFFF⟩ w = true ↔ w = p := by
  have hand : w &&& 0xFFF#12 = w := BitVec.and_allOnes
  simp [OpcodeRow.selects, hand]

/-- A row whose mask covers `op` alone is selected by the words with its pattern's `op`. -/
theorem op_of_selects_op_mask {m : String} {p w : CmdWord} (h : OpcodeRow.selects ⟨m, p, 0xF00⟩ w = true) :
    opField w = opField p := by
  have hp : w &&& 0xF00#12 = p := beq_iff_eq.1 h
  rw [← hp, opField, opField, BitVec.extractLsb'_and]
  exact BitVec.and_allOnes.symm

/-- The word of every command selects its row. -/
theorem selectsRow (i : Instr) : Laws.SelectsRow.Statement i := by
  cases i with
  | nop => exact Laws.SelectsRow.nop
  | init => exact Laws.SelectsRow.init
  | upd b => exact Laws.SelectsRow.upd b
  | ldx b => exact Laws.SelectsRow.ldx b
  | vfy => exact Laws.SelectsRow.vfy

/-- A word that selects a row decodes to a command of that row. -/
theorem decode_of_selects {w : CmdWord} {r : OpcodeRow} (hr : r ∈ opcodeRows) (h : r.selects w = true) :
    ∃ i, decode w = .cmd i ∧ i.row = r := by
  simp only [opcodeRows, List.mem_cons, List.not_mem_nil, or_false] at hr
  obtain rfl | rfl | rfl | rfl | rfl := hr
  · rw [(selects_full_mask _ _ _).1 h]
    exact ⟨.nop, decode_encode .nop, rfl⟩
  · rw [(selects_full_mask _ _ _).1 h]
    exact ⟨.init, decode_encode .init, rfl⟩
  · exact ⟨.upd (immField w), decode_of_op_two (op_of_selects_op_mask h), rfl⟩
  · exact ⟨.ldx (immField w), decode_of_op_three (op_of_selects_op_mask h), rfl⟩
  · rw [(selects_full_mask _ _ _).1 h]
    exact ⟨.vfy, decode_encode .vfy, rfl⟩

/-- No word selects two rows: it would decode to commands of both. -/
theorem eq_of_selects {w : CmdWord} {r r' : OpcodeRow} (hr : r ∈ opcodeRows) (hr' : r' ∈ opcodeRows)
    (h : r.selects w = true) (h' : r'.selects w = true) : r = r' := by
  obtain ⟨i, hi, rfl⟩ := decode_of_selects hr h
  obtain ⟨j, hj, rfl⟩ := decode_of_selects hr' h'
  cases hi.symm.trans hj
  rfl

/-! ### The obligations, tier 3 -/

/-- Settles O4: `encode_of_decode` and `decode_encode`. -/
theorem decodeEncodeInverse : Obligations.DecodeEncodeInverse := by
  intro w i
  constructor
  · exact encode_of_decode
  · rintro rfl
    exact decode_encode i

/-! ### The obligations, tier 2 -/

/-- Settles O3: R54's ranges are the words that decode to `RESERVED`, and their effect is `raiseFault .illegal`. -/
theorem reservedWordsRaiseIllegal : Obligations.ReservedWordsRaiseIllegal := by
  refine ⟨?table, reservedWord_iff_decode, ?raises, fun _ w _ hf => execWord_of_faulted w hf, length_filter_reserved,
    fun s w => ⟨_, execEdge_eq (.command w) s⟩⟩
  case table => exact fun w => (reservedWord_iff_decode w).symm.trans (reservedWord_iff_range w)
  case raises =>
    intro s w hw hf
    obtain ⟨why, hd⟩ := (reservedWord_iff_decode w).1 hw
    exact execWord_of_reserved hf hd

/-! ### The obligations, tier 1 -/

/-- Settles O1, row by row of the decoder. -/
theorem decodeIsTheSpecFunction : Obligations.DecodeIsTheSpecFunction := by
  refine ⟨fun _ => ⟨rfl, rfl⟩, ?nop, ?init, fun _ => decode_of_op_two, fun _ => decode_of_op_three, ?vfy,
    fun _ hop himm => ⟨_, decode_of_operand hop himm⟩, fun _ hop => ⟨_, decode_of_op_unused hop⟩,
    fun _ w hf => execWord_of_faulted w hf, fun s _ _ hd => execWord_of_cmd hd s, fun _ _ _ hf hd => execWord_of_reserved hf hd⟩
  case nop => exact fun w hop himm => by rw [decode_of_op_zero hop, if_pos himm]
  case init => exact fun w hop himm => by rw [decode_of_op_one hop, if_pos himm]
  case vfy => exact fun w hop himm => by rw [decode_of_op_four hop, if_pos himm]

/-- Settles O2: the rows are pairwise different, so by `eq_of_selects` no word selects two of them. -/
theorem opcodeRowsSelectTheirCommands : Obligations.OpcodeRowsSelectTheirCommands := by
  refine ⟨rfl, ?disjoint, ?selected, fun _ _ => decode_of_selects, ?commands, length_filter_reserved⟩
  case disjoint =>
    have hne : opcodeRows.Pairwise (· ≠ ·) := by decide
    exact hne.imp_of_mem fun ha hb hab w hsel => hab (eq_of_selects ha hb hsel.1 hsel.2)
  case selected =>
    intro w i h
    rw [← encode_of_decode h]
    exact selectsRow i
  case commands =>
    simp only [isSome_instr?_decode]
    exact length_filter_not_reserved

/-- Settles O5: each word is the encoding of its command, or has an operand or an opcode of R54. -/
theorem patternWordsDecode : Obligations.PatternWordsDecode :=
  ⟨decode_encode .nop, decode_encode .init, decode_encode (.upd 0x74), decode_encode (.ldx 0xAE), decode_encode .vfy,
    decode_of_operand (.inr (.inr rfl)) (by decide), decode_of_op_unused (by decide)⟩

/-- Settles O9: a step is the effect of an edge, a command's execution its effect or nothing. -/
theorem everyStepAnswersANextState : Obligations.EveryStepAnswersANextState :=
  ⟨fun s => ⟨_, step_eq s⟩, fun i s => ⟨_, exec_eq i s⟩⟩

end Sys2Proof.Machine
end

section
/-! Family 30_encoding, the assembler: the commands a statement stands for (R60, R61); how a line is read, from its characters to
its statement; that a disassembly reads back (R60). Lemmas first, then the obligations. -/

namespace Sys2Proof.Machine

/-! ### The commands of a statement (R60, R61) -/

/-- The codes of a text, as bytes. -/
def textBytes (text : List Nat) : List Byte := text.map (BitVec.ofNat 8)

/-- The commands a statement stands for; `.word` gives a word and no command. -/
def stmtInstrs : AsmStmt → List Instr
  | .nop => [.nop]
  | .init => [.init]
  | .upd b => [.upd (BitVec.ofNat 8 b)]
  | .ldx b => [.ldx (BitVec.ofNat 8 b)]
  | .vfy => [.vfy]
  | .word _ => []
  | .upds text => (textBytes text).map .upd
  | .updx bytes => (textBytes bytes).map .upd
  | .ldx32 v => (be4 (BitVec.ofNat 32 v)).map .ldx
  | .crcof tag text => computeTransaction (textBytes tag) (textBytes text)
  | .check tag text v => verifyTransaction (textBytes tag) (textBytes text) (be4 (BitVec.ofNat 32 v))

theorem mapM_plainWord_upd (text : List Nat) :
    (text.map .upd).mapM plainWord = some (((textBytes text).map Instr.upd).map encode) := by
  induction text with
  | nil => rfl
  | cons b text ih => simp [ih, plainWord, textBytes]

theorem mapM_plainWord_ldx (bytes : List Byte) :
    (bytes.map (fun b => AsmStmt.ldx b.toNat)).mapM plainWord = some ((bytes.map Instr.ldx).map encode) := by
  induction bytes with
  | nil => rfl
  | cons b bytes ih => simp [ih, plainWord]

/-- The words of an expansion are those of the commands the statement stands for. -/
theorem mapM_plainWord_expand {st : AsmStmt} (h : ∀ w, st ≠ .word w) :
    (expand st).mapM plainWord = some ((stmtInstrs st).map encode) := by
  cases st with
  | nop => rfl
  | init => rfl
  | upd b => rfl
  | ldx b => rfl
  | vfy => rfl
  | word w => exact absurd rfl (h w)
  | upds text => exact mapM_plainWord_upd text
  | updx bytes => exact mapM_plainWord_upd bytes
  | ldx32 v => exact mapM_plainWord_ldx _
  | crcof tag text =>
    simp [-List.mapM_map, -List.map_map, expand, stmtInstrs, computeTransaction, chunkMessage, plainWord,
      mapM_plainWord_upd]
  | check tag text v =>
    simp [-List.mapM_map, -List.map_map, expand, stmtInstrs, verifyTransaction, computeTransaction, chunkMessage, plainWord,
      mapM_plainWord_upd, mapM_plainWord_ldx]

/-- A well-formed statement other than `.word` assembles to the words of its commands. -/
theorem assembleStmt_of_wellFormed {st : AsmStmt} (h : ∀ w, st ≠ .word w) (hwf : st.wellFormed = true) :
    assembleStmt st = some ((stmtInstrs st).map encode) :=
  (if_pos hwf).trans (mapM_plainWord_expand h)

/-- An ill-formed statement is an assembler error. -/
theorem assembleStmt_of_not_wellFormed {st : AsmStmt} (hwf : ¬ st.wellFormed = true) : assembleStmt st = none :=
  if_neg hwf

theorem assembleStmt_upd {b : Nat} (h : b ≤ 255) : assembleStmt (.upd b) = some [encode (.upd (BitVec.ofNat 8 b))] :=
  assembleStmt_of_wellFormed (fun _ => AsmStmt.noConfusion) (decide_eq_true h)

theorem assembleStmt_ldx {b : Nat} (h : b ≤ 255) : assembleStmt (.ldx b) = some [encode (.ldx (BitVec.ofNat 8 b))] :=
  assembleStmt_of_wellFormed (fun _ => AsmStmt.noConfusion) (decide_eq_true h)

/-- `.word` gives its number as it stands. -/
theorem assembleStmt_word (w : CmdWord) : assembleStmt (.word w.toNat) = some [w] := by
  have hwf : (AsmStmt.word w.toNat).wellFormed = true := decide_eq_true w.isLt
  simp [assembleStmt, hwf, expand, plainWord]

/-- A word in format `C`, its fields put together by or (R50). -/
theorem formatC_eq_or (op : BitVec 4) (imm8 : Byte) : formatC op imm8 = op.setWidth 12 <<< 8 ||| imm8.setWidth 12 := by
  rw [← BitVec.setWidth_append_eq_shiftLeft_setWidth_or]
  exact (BitVec.setWidth_eq _).symm

theorem setWidth_ofNat_byte {b : Nat} (h : b ≤ 255) : (BitVec.ofNat 8 b).setWidth 12 = BitVec.ofNat 12 b :=
  BitVec.setWidth_ofNat_of_le_of_lt (by decide) (by omega)

/-! ### Reading a line -/

/-- A character that a token without quotes may hold: no blank, no `;`, no single quote (code 27) or double quote (code 22). -/
def bareChar (c : Char) : Bool := !isBlank c && c != ';' && c != '\x27' && c != '\x22'

/-- Between tokens such a character starts one. -/
theorem lexLine_gap_cons {c : Char} (h : bareChar c = true) (cs : List Char) :
    lexLine .gap (c :: cs) = lexLine (.bare [c]) cs := by
  simp_all [bareChar, lexLine]

/-- In a token such a character is collected. -/
theorem lexLine_bare_cons {c : Char} (h : bareChar c = true) (acc cs : List Char) :
    lexLine (.bare acc) (c :: cs) = lexLine (.bare (c :: acc)) cs := by
  simp_all [bareChar, lexLine]

theorem lexLine_bare_append {cs : List Char} (h : cs.all bareChar = true) (acc rest : List Char) :
    lexLine (.bare acc) (cs ++ rest) = lexLine (.bare (cs.reverse ++ acc)) rest := by
  induction cs generalizing acc with
  | nil => rfl
  | cons c cs ih =>
    obtain ⟨hc, hcs⟩ : bareChar c = true ∧ cs.all bareChar = true := by simpa using h
    simp [lexLine_bare_cons hc, ih hcs]

theorem lexLine_gap_append {cs : List Char} (hne : cs ≠ []) (h : cs.all bareChar = true) (rest : List Char) :
    lexLine .gap (cs ++ rest) = lexLine (.bare cs.reverse) rest := by
  obtain ⟨c, cs, rfl⟩ := List.exists_cons_of_ne_nil hne
  obtain ⟨hc, hcs⟩ : bareChar c = true ∧ cs.all bareChar = true := by simpa using h
  simp [lexLine_gap_cons hc, lexLine_bare_append hcs]

/-- A line of one token. -/
theorem lexLine_one {cs : List Char} (hne : cs ≠ []) (h : cs.all bareChar = true) :
    lexLine .gap cs = some [.bare cs] := by
  have hlex := lexLine_gap_append hne h []
  rwa [List.append_nil, lexLine, List.reverse_reverse] at hlex

/-- A line of two tokens with a space between them. -/
theorem lexLine_two {cs ds : List Char} (hcs : cs ≠ []) (hcsb : cs.all bareChar = true) (hds : ds ≠ [])
    (hdsb : ds.all bareChar = true) : lexLine .gap (cs ++ ' ' :: ds) = some [.bare cs, .bare ds] := by
  rw [lexLine_gap_append hcs hcsb]
  simp [lexLine, isBlank, lexLine_one hds hdsb]

@[simp] theorem readMnemonic_spelling (m : Mnemonic) : readMnemonic m.spelling = some m := by
  cases m <;> decide

theorem spelling_ne_nil (m : Mnemonic) : m.spelling ≠ [] := by cases m <;> decide

theorem all_bareChar_spelling (m : Mnemonic) : m.spelling.all bareChar = true := by cases m <;> decide

/-- A line that is a name alone. -/
theorem assembleLine_spelling {m : Mnemonic} {st : AsmStmt} (h : readStmt m [] = some st) :
    assembleLine m.spelling = assembleStmt st := by
  simp [assembleLine, lexLine_one (spelling_ne_nil m) (all_bareChar_spelling m), h]

/-- A line of a name and one operand without quotes. -/
theorem assembleLine_spelling_operand {m : Mnemonic} {ds : List Char} {st : AsmStmt} (hne : ds ≠ [])
    (hds : ds.all bareChar = true) (h : readStmt m [.bare ds] = some st) :
    assembleLine (m.spelling ++ ' ' :: ds) = assembleStmt st := by
  simp [assembleLine, lexLine_two (spelling_ne_nil m) (all_bareChar_spelling m) hne hds, h]

/-! ### Printed digits read back (R60) -/

@[simp] theorem hexDigit_hexChar (d : BitVec 4) : hexDigit (hexChar d) = some d.toNat := by
  revert d; decide

@[simp] theorem bareChar_hexChar (d : BitVec 4) : bareChar (hexChar d) = true := by
  revert d; decide

@[simp] theorem bareChar_zero : bareChar '0' = true := by decide
@[simp] theorem bareChar_x : bareChar 'x' = true := by decide

/-- The two digits of a byte are read as the byte. -/
theorem readByte_showByte (b : Byte) : readByte (.bare (showByte b)) = some b.toNat := by
  have hb : b.toNat >>> 4 % 16 * 16 + b.toNat % 16 = b.toNat := by omega
  simp [readByte, showByte, readHex0x, readHex, readDigits, hb]

theorem all_bareChar_showByte (b : Byte) : (showByte b).all bareChar = true := by simp [showByte]

/-- `0x` and the three digits of a word, as the disassembly prints them. -/
def showWord (w : CmdWord) : List Char :=
  ['0', 'x', hexChar (w.extractLsb' 8 4), hexChar (w.extractLsb' 4 4), hexChar (w.extractLsb' 0 4)]

/-- The three digits of a word are read as the word. -/
theorem readHex0x_showWord (w : CmdWord) : readHex0x 3 (showWord w) = some w.toNat := by
  have hw : (w.toNat >>> 8 % 16 * 16 + w.toNat >>> 4 % 16) * 16 + w.toNat % 16 = w.toNat := by omega
  simp [showWord, readHex0x, readHex, readDigits, hw]

theorem all_bareChar_showWord (w : CmdWord) : (showWord w).all bareChar = true := by simp [showWord]

/-! ### The disassembly of a word (R60) -/

theorem disassemble_of_reserved {w : CmdWord} {why : Reserved} (h : decode w = .reserved why) :
    disassemble w = Mnemonic.word.spelling ++ ' ' :: showWord w := by
  simp [disassemble, h, showWord]

/-- A line of a name and a printed byte. -/
theorem assembleLine_showByte {m : Mnemonic} {b : Byte} {st : AsmStmt} (h : readStmt m [.bare (showByte b)] = some st) :
    assembleLine (m.spelling ++ ' ' :: showByte b) = assembleStmt st :=
  assembleLine_spelling_operand (by simp [showByte]) (all_bareChar_showByte b) h

theorem assembleLine_disassemble_encode (i : Instr) : assembleLine (disassemble (encode i)) = some [encode i] := by
  rw [disassemble, decode_encode]
  cases i with
  | nop => exact assembleLine_spelling (m := .nop) rfl
  | init => exact assembleLine_spelling (m := .init) rfl
  | vfy => exact assembleLine_spelling (m := .vfy) rfl
  | upd b =>
    calc assembleLine (Mnemonic.upd.spelling ++ ' ' :: showByte b)
        = assembleStmt (.upd b.toNat) := assembleLine_showByte (by simp [readStmt, readByte_showByte])
      _ = some [encode (.upd b)] := by simp [assembleStmt_upd (Nat.le_of_lt_succ b.isLt)]
  | ldx b =>
    calc assembleLine (Mnemonic.ldx.spelling ++ ' ' :: showByte b)
        = assembleStmt (.ldx b.toNat) := assembleLine_showByte (by simp [readStmt, readByte_showByte])
      _ = some [encode (.ldx b)] := by simp [assembleStmt_ldx (Nat.le_of_lt_succ b.isLt)]

theorem assembleLine_disassemble (w : CmdWord) : assembleLine (disassemble w) = some [w] := by
  cases h : decode w with
  | cmd i =>
    rw [← encode_of_decode h]
    exact assembleLine_disassemble_encode i
  | reserved why =>
    rw [disassemble_of_reserved h]
    have hread : readStmt .word [.bare (showWord w)] = some (.word w.toNat) := by
      simp [readStmt, readBare, readHex0x_showWord]
    rw [assembleLine_spelling_operand (by simp [showWord]) (all_bareChar_showWord w) hread, assembleStmt_word]

/-! ### The obligations, tier 2 -/

/-- Settles O54: a disassembly reads back by `assembleLine_disassemble`; a statement other than `.word` gives words of commands, which are not
reserved. -/
theorem disassemblyAssemblesBack : Obligations.DisassemblyAssemblesBack := by
  refine ⟨assembleLine_disassemble, ?inRange, ?tooLarge, ?reserved⟩
  case inRange =>
    intro b h
    rw [assembleStmt_upd h, assembleStmt_ldx h, encode, encode, formatC_eq_or, formatC_eq_or, setWidth_ofNat_byte h]
    exact ⟨rfl, rfl⟩
  case tooLarge =>
    intro b h
    have hb : ¬ decide (b ≤ 255) = true := by simpa using h
    exact ⟨assembleStmt_of_not_wellFormed hb, assembleStmt_of_not_wellFormed hb⟩
  case reserved =>
    intro st words hst h w hw
    by_cases hwf : st.wellFormed = true
    · rw [assembleStmt_of_wellFormed hst hwf] at h
      cases h
      obtain ⟨i, -, rfl⟩ := List.mem_map.1 hw
      exact reservedWord_encode i
    · rw [assembleStmt_of_not_wellFormed hwf] at h
      cases h

/-- Settles O55: each pseudo-instruction gives the words of the commands it stands for. -/
theorem pseudoInstructionsExpandToTransactions : Obligations.PseudoInstructionsExpandToTransactions := by
  refine ⟨?crcof, ?check, ?ldx32, ?upds, ?updx, ?printed⟩
  case crcof =>
    intro tag text htag htext
    exact assembleStmt_of_wellFormed (fun _ => AsmStmt.noConfusion)
      (by simp only [AsmStmt.wellFormed, htag, htext, Bool.and_self])
  case check =>
    intro tag text v htag htext hv
    exact assembleStmt_of_wellFormed (fun _ => AsmStmt.noConfusion)
      (by simp only [AsmStmt.wellFormed, htag, htext, hv, decide_true, Bool.and_self])
  case ldx32 =>
    intro v hv
    exact assembleStmt_of_wellFormed (fun _ => AsmStmt.noConfusion) (decide_eq_true hv)
  case upds =>
    intro text h
    rw [assembleStmt_of_wellFormed (st := .upds text) (fun _ => AsmStmt.noConfusion) h]
    simp [stmtInstrs, textBytes]
  case updx =>
    intro bytes h
    rw [assembleStmt_of_wellFormed (st := .updx bytes) (fun _ => AsmStmt.noConfusion) h]
    simp [stmtInstrs, textBytes]
  case printed => decide

end Sys2Proof.Machine
end

section
/-! Family 40_crc_arithmetic, the shift register: the one-bit step is linear over exclusive-or and has an inverse (R71, R82); many shifts
are powers of one; where no bit that leaves the register is set, they are the plain shift. -/

namespace Sys2Proof.Machine

/-! ### One shift (R71, R82) -/

/-- What a shift feeds back: the polynomial for a bit that leaves, else nothing (R71). -/
def feedback (d : Bool) : Word := if d then polyReflected else 0

@[simp] theorem feedback_true : feedback true = polyReflected := rfl
@[simp] theorem feedback_false : feedback false = 0 := rfl

theorem feedback_xor (c d : Bool) : feedback (c ^^ d) = feedback c ^^^ feedback d := by
  cases c <;> cases d <;> decide

/-- The polynomial's top bit is set, so the fed-back word shows in bit 31 (R82). -/
theorem feedback_top (d : Bool) : (feedback d).getLsbD 31 = d := by
  cases d <;> decide

theorem shift1_eq (r : Word) : shift1 r = r >>> 1 ^^^ feedback (r.getLsbD 0) := rfl

/-- The one-bit step is linear over exclusive-or (R71). -/
theorem shift1_xor (a b : Word) : shift1 (a ^^^ b) = shift1 a ^^^ shift1 b := by
  simp only [shift1_eq, BitVec.ushiftRight_xor_distrib, BitVec.getLsbD_xor, feedback_xor]
  ac_rfl

@[simp] theorem shift1_zero : shift1 0 = 0 := by decide

/-- Where bit 0 is clear, a shift is the plain shift (R78). -/
theorem shift1_of_even {r : Word} (h : r.getLsbD 0 = false) : shift1 r = r >>> 1 := by
  rw [shift1_eq, h, feedback_false, xor_zero]

/-- Where bit 31 is clear, a shift undoes a shift to the left. -/
theorem shift1_shiftLeft {r : Word} (h : r.getLsbD 31 = false) : shift1 (r <<< 1) = r := by
  rw [shift1_of_even (by simp)]
  refine BitVec.eq_of_getLsbD_eq fun i hi => ?_
  rcases Nat.lt_succ_iff_lt_or_eq.1 hi with hlt | rfl
  · simp [Nat.add_comm 1 i, Nat.succ_lt_succ hlt, BitVec.getLsbD_eq_getElem hi]
  · rw [h, BitVec.getLsbD_ushiftRight, BitVec.getLsbD_of_ge _ _ (by decide)]

/-- The bit that leaves the register shows in its top bit (R82). -/
theorem shift1_top (r : Word) : (shift1 r).getLsbD 31 = r.getLsbD 0 := by
  rw [shift1_eq, BitVec.getLsbD_xor, feedback_top, BitVec.getLsbD_ushiftRight, BitVec.getLsbD_of_ge _ _ (by decide), Bool.false_xor]

/-- The inverse step: take the fed-back word off again, shift to the left, and put the lost bit back (R82). -/
theorem unshift1_eq (s : Word) :
    unshift1 s = (s ^^^ feedback (s.getLsbD 31)) <<< 1 ||| (BitVec.ofBool (s.getLsbD 31)).setWidth 32 := by
  unfold unshift1
  cases s.getLsbD 31 <;> simp

/-- A word is its upper bits and its bit 0. -/
theorem shiftRight_shiftLeft_or_bit (r : Word) : r >>> 1 <<< 1 ||| (BitVec.ofBool (r.getLsbD 0)).setWidth 32 = r := by
  refine BitVec.eq_of_getLsbD_eq fun i hi => ?_
  cases i with
  | zero => simp
  | succ i => simp [Nat.add_comm 1 i, hi]

theorem unshift1_shift1 : Function.LeftInverse unshift1 shift1 := by
  intro r
  rw [unshift1_eq, shift1_top, shift1_eq, xor_cancel_right, shiftRight_shiftLeft_or_bit]

theorem shift1_injective : Function.Injective shift1 := unshift1_shift1.injective

/-- On the finite set of words an inverse on one side is an inverse on the other. -/
theorem shift1_unshift1 : Function.RightInverse unshift1 shift1 :=
  unshift1_shift1.rightInverse_of_surjective (Finite.surjective_of_injective shift1_injective)

/-! ### Many shifts -/

theorem shiftTimes_eq_iterate (n : Nat) : shiftTimes n = shift1^[n] := by
  funext r
  induction n generalizing r with
  | zero => rfl
  | succ n ih => exact ih _

theorem unshiftTimes_eq_iterate (n : Nat) : unshiftTimes n = unshift1^[n] := by
  funext r
  induction n generalizing r with
  | zero => rfl
  | succ n ih => exact ih _

theorem shiftTimes_succ (n : Nat) (r : Word) : shiftTimes (n + 1) r = shiftTimes n (shift1 r) := rfl

theorem shiftTimes_add (m n : Nat) (r : Word) : shiftTimes (m + n) r = shiftTimes m (shiftTimes n r) := by
  simp only [shiftTimes_eq_iterate, Function.iterate_add_apply]

theorem shiftTimes_xor (n : Nat) (a b : Word) : shiftTimes n (a ^^^ b) = shiftTimes n a ^^^ shiftTimes n b := by
  induction n generalizing a b with
  | zero => rfl
  | succ n ih => rw [shiftTimes_succ, shift1_xor, ih]; rfl

theorem unshiftTimes_shiftTimes (n : Nat) : Function.LeftInverse (unshiftTimes n) (shiftTimes n) := by
  rw [shiftTimes_eq_iterate, unshiftTimes_eq_iterate]
  exact unshift1_shift1.iterate n

theorem shiftTimes_unshiftTimes (n : Nat) : Function.RightInverse (unshiftTimes n) (shiftTimes n) := by
  rw [shiftTimes_eq_iterate, unshiftTimes_eq_iterate]
  exact shift1_unshift1.iterate n

theorem shiftTimes_injective (n : Nat) : Function.Injective (shiftTimes n) := (unshiftTimes_shiftTimes n).injective

/-- `n` shifts of a word whose low `n` bits are clear are a plain shift to the right (R73). -/
theorem shiftTimes_of_low_clear {n : Nat} {r : Word} (h : ∀ i < n, r.getLsbD i = false) : shiftTimes n r = r >>> n := by
  induction n generalizing r with
  | zero => simp [shiftTimes]
  | succ n ih =>
    have hrest : ∀ i < n, (r >>> 1).getLsbD i = false := by
      intro i hi
      rw [BitVec.getLsbD_ushiftRight, Nat.add_comm]
      exact h (i + 1) (Nat.succ_lt_succ hi)
    rw [shiftTimes_succ, shift1_of_even (h 0 n.succ_pos), ih hrest, ← BitVec.shiftRight_add, Nat.add_comm]

/-- Where bit 31 is clear, an inverse shift is the plain shift to the left (R82). -/
theorem unshift1_of_top_clear {s : Word} (h : s.getLsbD 31 = false) : unshift1 s = s <<< 1 := by
  unfold unshift1
  rw [h]
  rfl

/-- `n` inverse shifts of a word whose top `n` bits are clear are a plain shift to the left (R82). -/
theorem unshiftTimes_of_top_clear {n : Nat} (hn : n ≤ 32) {s : Word} (h : ∀ i < n, s.getLsbD (31 - i) = false) :
    unshiftTimes n s = s <<< n := by
  induction n generalizing s with
  | zero => simp [unshiftTimes]
  | succ n ih =>
    have hrest : ∀ i < n, (s <<< 1).getLsbD (31 - i) = false := by
      intro i hi
      rw [BitVec.getLsbD_shiftLeft, show 31 - i - 1 = 31 - (i + 1) by omega, h (i + 1) (Nat.succ_lt_succ hi), Bool.and_false]
    calc unshiftTimes (n + 1) s
        = unshiftTimes n (s <<< 1) := congrArg (unshiftTimes n) (unshift1_of_top_clear (h 0 n.succ_pos))
      _ = s <<< 1 <<< n := ih (Nat.le_of_succ_le hn) hrest
      _ = s <<< (n + 1) := by rw [← BitVec.shiftLeft_add, Nat.add_comm]

end Sys2Proof.Machine
end

section
/-! Family 40_crc_arithmetic, bytes and messages: some bits entering the register are one word added before as many shifts (R72, R73);
from that, the forms of the byte step (R76) and its inverses (R82); what a message makes of the register (R79, R80). -/

namespace Sys2Proof.Machine

/-! ### Bits entering the register (R71, R72, R77) -/

/-- The word with the given bits, the first one lowest. -/
def streamWord (l : List Bool) : Word := (BitVec.ofBoolListLE l).setWidth 32

theorem streamWord_getLsbD (l : List Bool) {i : Nat} (hi : i < 32) : (streamWord l).getLsbD i = l.getD i false := by
  simp [streamWord, BitVec.getLsbD_ofBoolListLE, hi]

theorem streamWord_cons (d : Bool) (l : List Bool) :
    streamWord (d :: l) = (BitVec.ofBool d).setWidth 32 ^^^ streamWord l <<< 1 := by
  refine BitVec.eq_of_getLsbD_eq fun i hi => ?_
  rw [streamWord_getLsbD _ hi, BitVec.getLsbD_xor, BitVec.getLsbD_shiftLeft]
  cases i with
  | zero => simp
  | succ i => simp [streamWord_getLsbD l (Nat.lt_of_succ_lt hi), hi]

/-- Fewer than 32 bits leave the top bit of the word clear. -/
theorem streamWord_top {l : List Bool} (h : l.length < 32) : (streamWord l).getLsbD 31 = false := by
  rw [streamWord_getLsbD l (by decide), List.getD_eq_default _ _ (Nat.le_of_lt_succ h)]

/-- Two lists of at most 32 bits with the same word are equal. -/
theorem streamWord_inj {l l' : List Bool} (hlen : l.length = l'.length) (h32 : l.length ≤ 32)
    (h : streamWord l = streamWord l') : l = l' := by
  refine List.ext_getElem hlen fun i hi hi' => ?_
  have hbit := congrArg (BitVec.getLsbD · i) h
  simpa [streamWord_getLsbD _ (hi.trans_le h32), hi, hi'] using hbit

/-- At most 32 bits entering one after the other are their word added at once, then as many shifts. -/
theorem foldl_bitstep_eq {l : List Bool} (h : l.length ≤ 32) (r : Word) :
    l.foldl bitstep r = shiftTimes l.length (r ^^^ streamWord l) := by
  induction l generalizing r with
  | nil => simp [shiftTimes, streamWord, BitVec.ofBoolListLE]
  | cons d l ih =>
    have hword : shift1 (streamWord l <<< 1) = streamWord l := shift1_shiftLeft (streamWord_top h)
    calc (d :: l).foldl bitstep r
        = shiftTimes l.length (bitstep r d ^^^ streamWord l) := ih (Nat.le_of_succ_le h) _
      _ = shiftTimes l.length (shift1 (r ^^^ streamWord (d :: l))) := by
          rw [streamWord_cons, ← BitVec.xor_assoc, shift1_xor, hword, bitstep]

theorem bitstep_injective (d : Bool) : Function.Injective (bitstep · d) :=
  fun _ _ h => (BitVec.xor_left_inj _).1 (shift1_injective h)

theorem foldl_bitstep_injective (l : List Bool) : Function.Injective (l.foldl bitstep) := by
  induction l with
  | nil => exact fun _ _ h => h
  | cons d l ih => exact fun _ _ h => bitstep_injective d (ih h)

/-- Different lists of at most 32 bits take a register to different registers (R81). -/
theorem eq_of_foldl_bitstep_eq {l l' : List Bool} (hlen : l.length = l'.length) (h32 : l.length ≤ 32) {r : Word}
    (h : l.foldl bitstep r = l'.foldl bitstep r) : l = l' := by
  rw [foldl_bitstep_eq h32, foldl_bitstep_eq (hlen ▸ h32), hlen] at h
  exact streamWord_inj hlen h32 ((BitVec.xor_right_inj _).1 (shiftTimes_injective _ h))

/-! ### The byte step and its forms (R72, R73, R74, R76) -/

/-- The first `n` bits of a word, lowest first, are the bits of that word. -/
theorem streamWord_range_getLsbD {n : Nat} (x : BitVec n) :
    streamWord ((List.range n).map x.getLsbD) = x.setWidth 32 := by
  refine BitVec.eq_of_getLsbD_eq fun i hi => ?_
  rw [streamWord_getLsbD _ hi, BitVec.getLsbD_setWidth]
  by_cases h : i < n
  · simp [h, hi]
  · simp [h, BitVec.getLsbD_of_ge x i (Nat.not_lt.1 h)]

@[simp] theorem byteBits_length (b : Byte) : (byteBits b).length = 8 := rfl

@[simp] theorem streamWord_byteBits (b : Byte) : streamWord (byteBits b) = b.setWidth 32 :=
  streamWord_range_getLsbD b

/-- A byte stands in the low bits of a word. -/
theorem setWidth_byte_injective : Function.Injective (fun b : Byte => (b.setWidth 32 : Word)) := by
  intro b b' h
  simpa using congrArg (BitVec.setWidth 8) h

theorem byteBits_injective : Function.Injective byteBits := by
  intro b b' h
  exact setWidth_byte_injective (by simpa using congrArg streamWord h)

/-- The bits of a byte entering one after the other make the byte step (R72, R73). -/
theorem foldl_bitstep_byteBits (r : Word) (b : Byte) : (byteBits b).foldl bitstep r = bytestep r b := by
  rw [foldl_bitstep_eq (by simp), streamWord_byteBits]
  rfl

/-- The byte step is linear in the register and the byte together (R80). -/
theorem bytestep_xor (r r' : Word) (b b' : Byte) : bytestep (r ^^^ r') (b ^^^ b') = bytestep r b ^^^ bytestep r' b' := by
  rw [bytestep, BitVec.setWidth_xor, bytestep, bytestep, ← shiftTimes_xor]
  ac_rfl

theorem bytestep_zero_byte (r : Word) : bytestep r 0 = shiftTimes 8 r := by
  simp [bytestep]

theorem crcTable_eq_bytestep (i : Byte) : crcTable i = bytestep 0 i := by
  simp [crcTable, bytestep]

theorem crcTable_xor (i j : Byte) : crcTable (i ^^^ j) = crcTable i ^^^ crcTable j := by
  rw [crcTable, BitVec.setWidth_xor, shiftTimes_xor]
  rfl

/-- A word is its low byte and the rest. -/
theorem low_byte_xor_rest (x : Word) : (x.extractLsb' 0 8).setWidth 32 ^^^ x >>> 8 <<< 8 = x := by
  refine BitVec.eq_of_getLsbD_eq fun i hi => ?_
  by_cases h : i < 8
  · simp [h, hi]
  · simp [h, hi, Nat.not_lt.1 h]

/-- Eight shifts look up the low byte in the table and shift the rest (R74). -/
theorem shiftTimes_eight (x : Word) : shiftTimes 8 x = crcTable (x.extractLsb' 0 8) ^^^ x >>> 8 := by
  have hrest : shiftTimes 8 (x >>> 8 <<< 8) = x >>> 8 := by
    rw [shiftTimes_of_low_clear (by simp +contextual)]
    refine BitVec.eq_of_getLsbD_eq fun i hi => ?_
    simpa using BitVec.lt_of_getLsbD
  calc shiftTimes 8 x
      = shiftTimes 8 ((x.extractLsb' 0 8).setWidth 32 ^^^ x >>> 8 <<< 8) := by rw [low_byte_xor_rest]
    _ = crcTable (x.extractLsb' 0 8) ^^^ x >>> 8 := by rw [shiftTimes_xor, hrest, crcTable]

theorem bytestepTable_eq (r : Word) (b : Byte) : bytestepTable r b = bytestep r b := by
  have hrest : (r ^^^ b.setWidth 32) >>> 8 = r >>> 8 := by
    have hbyte : (b.setWidth 32 : Word) >>> 8 = 0 := BitVec.eq_of_getLsbD_eq fun i hi => by simp
    rw [BitVec.ushiftRight_xor_distrib, hbyte, xor_zero]
  rw [bytestep, shiftTimes_eight, hrest]
  rfl

/-! ### The inverse of the byte step (R82) -/

theorem unbytestep_bytestep (r : Word) (b : Byte) : unbytestep (bytestep r b) b = r := by
  rw [unbytestep, bytestep, unshiftTimes_shiftTimes, xor_cancel_right]

theorem bytestep_unbytestep (r : Word) (b : Byte) : bytestep (unbytestep r b) b = r := by
  rw [bytestep, unbytestep, xor_cancel_right, shiftTimes_unshiftTimes]

theorem bytestep_injective_byte (r : Word) : Function.Injective (bytestep r) :=
  fun _ _ h => setWidth_byte_injective ((BitVec.xor_right_inj _).1 (shiftTimes_injective 8 h))

/-- An entry whose top byte is zero is entry 0: the inverse shifts leave the low byte, the index, zero (R82). -/
theorem eq_zero_of_crcTable_top {i : Byte} (h : (crcTable i).extractLsb' 24 8 = 0) : i = 0 := by
  have htop : ∀ k < 8, (crcTable i).getLsbD (31 - k) = false := by
    intro k hk
    have hbit := congrArg (BitVec.getLsbD · (7 - k)) h
    have h1 : 7 - k < 8 := by omega
    have h2 : 24 + (7 - k) = 31 - k := by omega
    simpa [h1, h2] using hbit
  have hindex : i.setWidth 32 = crcTable i <<< 8 := by
    rw [← unshiftTimes_of_top_clear (by decide) htop]
    exact (unshiftTimes_shiftTimes 8 _).symm
  refine BitVec.eq_of_getLsbD_eq fun k hk => ?_
  have hbit := congrArg (BitVec.getLsbD · k) hindex
  simpa [hk, Nat.lt_trans hk (show 8 < 32 by decide)] using hbit

theorem crcTable_top_injective {i j : Byte} (h : (crcTable i).extractLsb' 24 8 = (crcTable j).extractLsb' 24 8) : i = j := by
  have htop : (crcTable (i ^^^ j)).extractLsb' 24 8 = 0 := by
    rw [crcTable_xor, BitVec.extractLsb'_xor, h, BitVec.xor_self]
    rfl
  exact BitVec.xor_eq_zero_iff.1 (eq_zero_of_crcTable_top htop)

/-! ### Messages (R75, R77, R79, R80) -/

@[simp] theorem messageBits_cons (b : Byte) (m : List Byte) : messageBits (b :: m) = byteBits b ++ messageBits m := rfl

@[simp] theorem messageBits_length (m : List Byte) : (messageBits m).length = 8 * m.length := by
  induction m with
  | nil => rfl
  | cons b m ih => rw [messageBits_cons, List.length_append, ih, byteBits_length, List.length_cons]; omega

/-- The bits of a message tell its bytes. -/
theorem messageBits_injective : Function.Injective messageBits := by
  intro m m' h
  induction m generalizing m' with
  | nil => cases m' with
    | nil => rfl
    | cons b' m' => cases h
  | cons b m ih => cases m' with
    | nil => cases h
    | cons b' m' =>
      obtain ⟨hb, hm⟩ := List.append_inj h rfl
      rw [byteBits_injective hb, ih hm]

/-- The bytes of a message and its bits in stream order make the same register (R76). -/
theorem foldl_bitstep_messageBits (m : List Byte) (r : Word) : (messageBits m).foldl bitstep r = m.foldl bytestep r := by
  rw [messageBits, List.foldl_flatMap]
  simp only [foldl_bitstep_byteBits]

theorem crcRegister_append (a b : List Byte) : crcRegister (a ++ b) = b.foldl bytestep (crcRegister a) :=
  List.foldl_append

theorem foldl_bytestep_injective (m : List Byte) : Function.Injective (m.foldl bytestep) := by
  intro r r' h
  exact foldl_bitstep_injective (messageBits m) (by simpa only [foldl_bitstep_messageBits] using h)

theorem crc32_eq_iff (m m' : List Byte) : crc32 m = crc32 m' ↔ crcRegister m = crcRegister m' :=
  BitVec.xor_left_inj _

theorem crc32_eq_zero_iff (m : List Byte) : crc32 m = 0 ↔ crcRegister m = crcInit :=
  BitVec.xor_eq_zero_iff

/-- The register is linear in the bytes and the register before them (R80). -/
theorem foldl_bytestep_zipWith_xor {a b : List Byte} (h : a.length = b.length) (r r' : Word) :
    (List.zipWith (· ^^^ ·) a b).foldl bytestep (r ^^^ r') = a.foldl bytestep r ^^^ b.foldl bytestep r' := by
  induction a generalizing b r r' with
  | nil =>
    obtain rfl := List.length_eq_zero_iff.1 h.symm
    rfl
  | cons x a ih => cases b with
    | nil => cases h
    | cons y b =>
      rw [List.zipWith_cons_cons, List.foldl_cons, bytestep_xor]
      exact ih (Nat.succ.inj h) _ _

/-- The affine law (R80). -/
theorem crc32_xor_xor {a b c : List Byte} (hab : a.length = b.length) (hbc : b.length = c.length) :
    crc32 (List.zipWith (· ^^^ ·) (List.zipWith (· ^^^ ·) a b) c) = crc32 a ^^^ crc32 b ^^^ crc32 c := by
  have hlen : (List.zipWith (· ^^^ ·) a b).length = c.length := by simp [hab, hbc]
  have hreg : crcRegister (List.zipWith (· ^^^ ·) (List.zipWith (· ^^^ ·) a b) c) =
      crcRegister a ^^^ crcRegister b ^^^ crcRegister c := by
    unfold crcRegister
    rw [← foldl_bytestep_zipWith_xor hab, ← foldl_bytestep_zipWith_xor hlen, BitVec.xor_self, BitVec.zero_xor]
  have hout : crcXorOut ^^^ crcXorOut ^^^ crcXorOut = crcXorOut := by decide
  calc crc32 _ = crcRegister a ^^^ crcRegister b ^^^ crcRegister c ^^^ (crcXorOut ^^^ crcXorOut ^^^ crcXorOut) := by
        rw [hout, crc32, hreg]
    _ = crc32 a ^^^ crc32 b ^^^ crc32 c := by
        unfold crc32
        ac_rfl

theorem zipWith_xor_zeros (m : List Byte) : List.zipWith (· ^^^ ·) m (List.replicate m.length 0) = m := by
  induction m with
  | nil => rfl
  | cons b m ih => rw [List.length_cons, List.replicate_succ, List.zipWith_cons_cons, ih, xor_zero]

/-- `n` zero bytes are `n` times eight shifts. -/
theorem foldl_bytestep_zeros (n : Nat) (r : Word) : (List.replicate n 0).foldl bytestep r = (shiftTimes 8)^[n] r := by
  induction n generalizing r with
  | zero => rfl
  | succ n ih => rw [List.replicate_succ, List.foldl_cons, ih, bytestep_zero_byte, Function.iterate_succ_apply]

/-- The bytes of a number, least significant first, are its bits in stream order (R84). -/
theorem messageBits_le4 (v : Word) : messageBits (le4 v) = (List.range 32).map v.getLsbD := by
  simp [messageBits, le4, byteBits, List.range_succ]

/-- A number entering least significant byte first is added at once, then 32 shifts. -/
theorem foldl_bytestep_le4 (r v : Word) : (le4 v).foldl bytestep r = shiftTimes 32 (r ^^^ v) := by
  have hbits := messageBits_le4 v
  have hlen : (messageBits (le4 v)).length = 32 := rfl
  have hword : streamWord (messageBits (le4 v)) = v := by
    rw [hbits, streamWord_range_getLsbD, BitVec.setWidth_eq]
  rw [← foldl_bitstep_messageBits, foldl_bitstep_eq hlen.le, hword, hlen]

/-! ### The register a zero byte leaves unchanged (R83) -/

theorem eq_zero_of_shiftRight_eq_self {z : Word} (h : z >>> 1 = z) : z = 0 := by
  have hnat : z.toNat >>> 1 = z.toNat := by simpa using congrArg BitVec.toNat h
  exact BitVec.eq_of_toNat_eq (show z.toNat = 0 by omega)

/-- Bit `k` is the parity of the polynomial's bits `k` to 31, so the word differs from its half by the polynomial. Bit 0 is clear: an
even number of the polynomial's bits is set, as `G` has 15 terms (R83). -/
def polyParities : Word := 0xB6D0FDC0#32

theorem polyParities_xor_half : polyParities ^^^ polyParities >>> 1 = polyReflected := by decide

/-- A shift leaves only the zero register unchanged: another one would have bit 0 set and be `polyParities`, whose bit 0 is clear. -/
theorem eq_zero_of_shift1_eq_self {r : Word} (h : shift1 r = r) : r = 0 := by
  cases hbit : r.getLsbD 0 with
  | false => exact eq_zero_of_shiftRight_eq_self ((shift1_of_even hbit).symm.trans h)
  | true =>
    have hr : r >>> 1 = r ^^^ polyReflected := by
      nth_rw 2 [← h]
      rw [shift1_eq, hbit, feedback_true, xor_cancel_right]
    have hdiff : (r ^^^ polyParities) >>> 1 = r ^^^ polyParities := by
      rw [BitVec.ushiftRight_xor_distrib, hr, ← polyParities_xor_half, BitVec.xor_assoc, xor_cancel_right]
    have heq : r = polyParities := BitVec.xor_eq_zero_iff.1 (eq_zero_of_shiftRight_eq_self hdiff)
    rw [heq] at hbit
    exact absurd hbit (by decide)

/-- If `n` shifts leave only zero unchanged, so do `2 * n`: what `n` shifts change of `r` is unchanged by `n` more (R83). -/
theorem eq_zero_of_shiftTimes_double_eq_self {n : Nat} (hn : ∀ r, shiftTimes n r = r → r = 0) {r : Word}
    (h : shiftTimes (n + n) r = r) : r = 0 := by
  refine hn r (BitVec.xor_eq_zero_iff.1 (hn _ ?_))
  rw [shiftTimes_xor, ← shiftTimes_add, h, BitVec.xor_comm]

/-- A zero byte leaves only the zero register unchanged (R83). -/
theorem bytestep_zero_byte_eq_self_iff (r : Word) : bytestep r 0 = r ↔ r = 0 := by
  rw [bytestep_zero_byte]
  constructor
  · have h1 : ∀ r, shiftTimes 1 r = r → r = 0 := fun _ => eq_zero_of_shift1_eq_self
    have h2 : ∀ r, shiftTimes 2 r = r → r = 0 := fun _ => eq_zero_of_shiftTimes_double_eq_self h1
    have h4 : ∀ r, shiftTimes 4 r = r → r = 0 := fun _ => eq_zero_of_shiftTimes_double_eq_self h2
    exact eq_zero_of_shiftTimes_double_eq_self h4
  · rintro rfl
    exact bytestep_zero_zero

end Sys2Proof.Machine
end

section
/-! Family 40_crc_arithmetic, the obligations on the byte step and on checksums; before them, a run of `UPD` commands (R79, R102). -/

namespace Sys2Proof.Machine

/-! ### A run of `UPD` commands -/

/-- Presenting `UPD` of some bytes carries the register through them, clears `vok` if there is one, and writes nothing else (R102). -/
theorem afterEdges_presentInstrs_upd (bytes : List Byte) {s : State} (hf : s.fault = .none) :
    afterEdges (presentInstrs (bytes.map .upd)) s =
      { s with crc := bytes.foldl bytestep s.crc, vok := s.vok && bytes.isEmpty } := by
  induction bytes generalizing s with
  | nil => exact State.ext_fields rfl rfl rfl (Bool.and_true _).symm rfl rfl
  | cons b bytes ih =>
    rw [List.map_cons, afterEdges_presentInstrs_cons _ _ hf, effectOf_upd, ih (by exact hf)]
    exact State.ext_fields rfl rfl rfl (by simp) rfl rfl

/-- The first `k` commands presented are those of the first `k` bytes. -/
theorem take_presentInstrs_upd {b : List Byte} {k : Nat} (hk : k ≤ b.length) (rest : List PortInput) :
    (presentInstrs (b.map .upd) ++ rest).take k = presentInstrs ((b.take k).map .upd) := by
  rw [List.take_append_of_le_length (by simpa using hk)]
  simp [presentInstrs]

/-! ### A window of 32 bits (R81 item 2) -/

/-- A list is what stands before a window of 32 places, the window, and what stands after it. -/
theorem take_window_drop (l : List Bool) (k : Nat) : l.take k ++ ((l.drop k).take 32 ++ l.drop (k + 32)) = l := by
  rw [← List.drop_drop, List.take_append_drop, List.take_append_drop]

/-- Lists of bits of one length that agree outside a window of 32 places and make the same register are equal: equal bits before the
window leave equal registers, equal bits after it keep the registers apart, and 32 bits are told from the register they make. -/
theorem eq_of_foldl_bitstep_eq_of_window {l l' : List Bool} {k : Nat} {r : Word} (hlen : l.length = l'.length)
    (hagree : ∀ j, j < k ∨ k + 32 ≤ j → l[j]? = l'[j]?) (h : l.foldl bitstep r = l'.foldl bitstep r) : l = l' := by
  have hbefore : l.take k = l'.take k := by
    refine List.ext_getElem? fun j => ?_
    by_cases hj : j < k
    · simp [hj, hagree j (.inl hj)]
    · simp [hj]
  have hafter : l.drop (k + 32) = l'.drop (k + 32) := by
    refine List.ext_getElem? fun j => ?_
    rw [List.getElem?_drop, List.getElem?_drop, hagree _ (.inr (Nat.le_add_right _ _))]
  rw [← take_window_drop l k, ← take_window_drop l' k] at h ⊢
  simp only [List.foldl_append, hbefore, hafter] at h ⊢
  rw [eq_of_foldl_bitstep_eq (by simp [hlen]) (by simp) (foldl_bitstep_injective _ h)]

/-! ### The obligations, tier 2 -/

/-- Settles O32: `shift1_xor`; the second form moves the added bit, which the shift drops, into the choice of the feedback. -/
theorem shiftIsLinear : Obligations.ShiftIsLinear := by
  refine ⟨fun _ => rfl, ?_, shift1_xor, shift1_zero⟩
  intro r d
  have hdrop : ((BitVec.ofBool d).setWidth 32 : Word) >>> 1 = 0 := BitVec.eq_of_getLsbD_eq fun i hi => by simp
  have hlow : ((BitVec.ofBool d).setWidth 32 : Word).getLsbD 0 = d := by simp
  rw [bitstep, shift1_eq, BitVec.ushiftRight_xor_distrib, hdrop, xor_zero, BitVec.getLsbD_xor, hlow]
  rfl

/-- Settles O33: at most 32 bits entering one by one are one word added at once (`foldl_bitstep_eq`), and eight shifts look the low
byte up in the table (`shiftTimes_eight`). -/
theorem byteStepFormsAgree : Obligations.ByteStepFormsAgree := by
  have hserial : bytestepSerial = bytestep := funext₂ foldl_bitstep_byteBits
  have htable : bytestepTable = bytestep := funext₂ bytestepTable_eq
  refine ⟨foldl_bitstep_byteBits, bytestepTable_eq, ?serial, ?bits, ?table⟩
  case serial => exact fun m => by rw [hserial]; rfl
  case bits => exact fun m => by rw [foldl_bitstep_messageBits]; rfl
  case table => exact fun m => by rw [htable]; rfl

/-- Settles O35, by the inverse steps. -/
theorem byteStepIsInvertible : Obligations.ByteStepIsInvertible :=
  ⟨shift1_top, unshift1_shift1, shift1_unshift1, unbytestep_bytestep, bytestep_unbytestep,
    fun r _ _ h => bytestep_injective_byte r h, fun _ _ => crcTable_top_injective⟩

/-- Settles O36: a run of `k` edges has the effects of the first `k` `UPD`, which carry the register through their bytes. -/
theorem absorbingIsIncremental : Obligations.AbsorbingIsIncremental := by
  refine ⟨crcRegister_append, ?_⟩
  intro s a b rest k hf hcrc hk hp
  have htake : s.port.take k = presentInstrs ((b.take k).map .upd) := by rw [hp, take_presentInstrs_upd hk]
  have hrun := run_eq_afterEdges_take k s
  rw [htake, afterEdges_presentInstrs_upd (s := s.setPort (s.port.drop k)) _ hf] at hrun
  refine ⟨_, hrun, hf, crcOut_of_crc ?_, rfl, rfl⟩
  rw [crcRegister_append, ← hcrc]
  rfl

/-- Settles O37: the register is linear in the message and the initial register together, and three initial registers are one. -/
theorem checksumIsAffine : Obligations.ChecksumIsAffine := by
  refine ⟨fun a b c => crc32_xor_xor, ?_, by decide⟩
  intro a b hab
  have hlen : (List.zipWith (· ^^^ ·) a b).length = a.length := by simp [hab]
  have haffine := crc32_xor_xor hab (c := List.replicate a.length 0) (by simp [hab])
  nth_rw 1 [← hlen] at haffine
  rwa [zipWith_xor_zeros] at haffine

/-- Settles O38: eight shifts permute the finite set of registers, so the initial register comes back. -/
theorem someAllZeroMessageHasChecksumZero : Obligations.SomeAllZeroMessageHasChecksumZero := by
  obtain ⟨n, hn, hperiod⟩ := (shiftTimes_injective 8).mem_periodicPts crcInit
  exact ⟨n, hn, (crc32_eq_zero_iff _).2 ((foldl_bytestep_zeros n _).trans hperiod)⟩

/-- Settles O39: the bytes after the changed one keep the registers apart, and the byte step is injective in the byte. -/
theorem oneChangedByteIsCaught : Obligations.OneChangedByteIsCaught := by
  intro before after b b' hne h
  rw [crc32_eq_iff, crcRegister_append, crcRegister_append] at h
  exact hne (bytestep_injective_byte _ (foldl_bytestep_injective after h))

/-- Settles O40: equal registers would make the bits of the messages equal (`eq_of_foldl_bitstep_eq_of_window`). -/
theorem burstsOfThirtyTwoBitsAreCaught : Obligations.BurstsOfThirtyTwoBitsAreCaught := by
  intro m m' k hlen hne hagree h
  rw [crc32_eq_iff, crcRegister, crcRegister, ← foldl_bitstep_messageBits, ← foldl_bitstep_messageBits] at h
  exact hne (messageBits_injective (eq_of_foldl_bitstep_eq_of_window (by simp [hlen]) hagree h))

/-- Settles O43: four bytes `FF` leave zero by evaluation, zero bytes keep it; the only fixed point is `bytestep_zero_byte_eq_self_iff`. -/
theorem zeroIsTheOnlyFixedPointOfAZeroByte : Obligations.ZeroIsTheOnlyFixedPointOfAZeroByte := by
  have hreg : ∀ n, crcRegister (onesThenZeros n) = 0#32 := by
    intro n
    induction n with
    | zero => decide
    | succ n ih => rw [onesThenZeros_succ, crcRegister_append_singleton, ih]; exact bytestep_zero_zero
  have hcrc : ∀ n, crc32 (onesThenZeros n) = 0xFFFFFFFF#32 := fun n => by rw [crc32, hreg]; rfl
  refine ⟨fun n => ⟨hreg n, hcrc n⟩, hcrc, ⟨rfl, bytestep_zero_zero⟩, bytestep_zero_byte_eq_self_iff, ?fixes, ?upd⟩
  case fixes => exact fun r => (zeroByteFixes_iff r).trans (bytestep_zero_byte_eq_self_iff r)
  case upd => exact fun s hf => ⟨_, exec_of_none _ hf, bytestep_zero_byte_eq_self_iff s.crc⟩

/-- Settles O44: the checksum added to the register leaves `0xFFFFFFFF`, whatever the message, and 32 shifts of that are the residue; in
wire order the empty message and `123456789` leave different registers. -/
theorem residueOfTheReversedChecksum : Obligations.ResidueOfTheReversedChecksum := by
  refine ⟨?_, by decide +kernel, [], [0x31, 0x32, 0x33, 0x34, 0x35, 0x36, 0x37, 0x38, 0x39], by decide +kernel⟩
  intro m
  rw [crcRegister_append, foldl_bytestep_le4, crc32, xor_cancel_left]
  decide

/-! ### The obligations, tier 1 -/

/-- Settles O31, bit by bit. -/
theorem generatorConstants : Obligations.GeneratorConstants :=
  ⟨by decide +kernel, by decide +kernel⟩

/-- Settles O34: the printed entries by evaluation, the two other forms by the definition of the table. -/
theorem tableIsAsPrinted : Obligations.TableIsAsPrinted := by
  have hprinted : ∀ i : Byte, printedTable[i.toNat]? = some (crcTable i) := by decide +kernel
  exact ⟨by decide +kernel, fun i => ⟨crcTable_eq_bytestep i, rfl, hprinted i⟩⟩

/-- Settles O41, by evaluation. -/
theorem widerChangesCanCollide : Obligations.WiderChangesCanCollide := by
  unfold Obligations.WiderChangesCanCollide
  decide +kernel

/-- Settles O42: the values by evaluation; an `INIT` in an unfaulted state leaves the initial register. -/
theorem particularChecksumsHold : Obligations.ParticularChecksums := by
  have hinit : ∀ s : State, s.fault = .none → ∃ t, exec .init s = .next t ∧ t.crc = crcRegister [] ∧ t.crcOut = crc32 [] :=
    fun s hf => ⟨_, exec_of_none _ hf, rfl, crcOut_of_crc rfl⟩
  refine ⟨?checksums, ?registers, ?empty, rfl, rfl, crcOut_of_crc rfl, hinit, ?oneByOne⟩
  case checksums => decide +kernel
  case registers => decide
  case empty => decide
  case oneByOne => decide +kernel

end Sys2Proof.Machine
end

section
/-! Family 40_crc_arithmetic, the polynomial reading (R77): a register is a polynomial over the field of two elements with the coefficient
of `x^k` in bit `31 - k`; a bit entering multiplies it by `x`, adds `x^32` for a set bit, and takes off the generator where `x^32` has
come up. So the register is the message's polynomial modulo the generator all along. -/

namespace Sys2Proof.Machine

open Polynomial

/-- A bit as an element of the field of two elements. -/
def bitCoeff (d : Bool) : ZMod 2 := if d then 1 else 0

@[simp] theorem bitCoeff_true : bitCoeff true = 1 := rfl
@[simp] theorem bitCoeff_false : bitCoeff false = 0 := rfl

theorem bitCoeff_eq_one_iff (d : Bool) : bitCoeff d = 1 ↔ d = true := by cases d <;> decide

theorem bitCoeff_xor (c d : Bool) : bitCoeff (c ^^ d) = bitCoeff c + bitCoeff d := by
  cases c <;> cases d <;> decide

/-! ### The polynomial of a register -/

/-- The polynomial whose coefficient of `x^k` stands in bit `31 - k` (R70, R77). -/
noncomputable def regPoly (r : Word) : (ZMod 2)[X] :=
  ∑ k ∈ Finset.range 32, C (bitCoeff (r.getLsbD (31 - k))) * X ^ k

theorem regPoly_coeff (r : Word) (k : Nat) :
    (regPoly r).coeff k = if k < 32 then bitCoeff (r.getLsbD (31 - k)) else 0 := by
  simp [regPoly]

theorem regPoly_degree_lt (r : Word) : (regPoly r).degree < (32 : Nat) := by
  rw [degree_lt_iff_coeff_zero]
  intro k hk
  rw [regPoly_coeff, if_neg (Nat.not_lt.2 hk)]

theorem regPoly_xor (a b : Word) : regPoly (a ^^^ b) = regPoly a + regPoly b := by
  simp only [regPoly, BitVec.getLsbD_xor, bitCoeff_xor, C_add, add_mul, Finset.sum_add_distrib]

/-- A register with only bit 0 holds the coefficient of `x^31`. -/
theorem regPoly_bit (d : Bool) : regPoly ((BitVec.ofBool d).setWidth 32) = C (bitCoeff d) * X ^ 31 := by
  ext k
  rw [regPoly_coeff, coeff_C_mul_X_pow]
  by_cases hk : k = 31
  · simp [hk]
  · have hbit : k < 32 → ¬ 31 - k = 0 := by omega
    simp +contextual [hk, hbit]

theorem regPoly_feedback (d : Bool) : regPoly (feedback d) = C (bitCoeff d) * regPoly polyReflected := by
  cases d with
  | false => simp [regPoly]
  | true => simp

/-- A plain shift multiplies by `x` and loses `x^32`, the bit that leaves. -/
theorem regPoly_shiftRight (r : Word) : regPoly (r >>> 1) + C (bitCoeff (r.getLsbD 0)) * X ^ 32 = X * regPoly r := by
  ext k
  rw [coeff_add, regPoly_coeff, coeff_C_mul_X_pow, BitVec.getLsbD_ushiftRight]
  cases k with
  | zero => simp
  | succ k =>
    rw [coeff_X_mul, regPoly_coeff]
    rcases lt_trichotomy k 31 with hk | rfl | hk
    · have hbit : 1 + (31 - (k + 1)) = 31 - k := by omega
      rw [if_pos (Nat.succ_lt_succ hk), if_neg (Nat.succ_ne_succ_iff.2 hk.ne), if_pos (Nat.lt_succ_of_lt hk), hbit, add_zero]
    · simp
    · rw [if_neg (by omega), if_neg (by omega), if_neg (by omega), add_zero]

/-! ### The generator (R70) -/

/-- The generator: `x^32` and the polynomial of the constant (R70). -/
noncomputable def generator : (ZMod 2)[X] := X ^ 32 + regPoly polyReflected

theorem generator_monic : generator.Monic := monic_X_pow_add (regPoly_degree_lt _)

theorem generator_degree : generator.degree = (32 : Nat) := by
  rw [generator, degree_add_eq_left_of_degree_lt (by simpa using regPoly_degree_lt polyReflected), degree_X_pow]

/-- The generator as the spec writes it. -/
theorem generator_eq : generator = X ^ 32 + X ^ 26 + X ^ 23 + X ^ 22 + X ^ 16 + X ^ 12 + X ^ 11 + X ^ 10 + X ^ 8 + X ^ 7 + X ^ 5 +
    X ^ 4 + X ^ 2 + X + 1 := by
  have hpoly : regPoly polyReflected =
      1 + X + X ^ 2 + X ^ 4 + X ^ 5 + X ^ 7 + X ^ 8 + X ^ 10 + X ^ 11 + X ^ 12 + X ^ 16 + X ^ 22 + X ^ 23 + X ^ 26 := by
    simp [regPoly, Finset.sum_range_succ, polyReflected]
  rw [generator, hpoly]
  ring

/-- One shift multiplies by `x` and takes off the generator where `x^32` has come up. -/
theorem regPoly_shift1 (r : Word) : regPoly (shift1 r) = X * regPoly r + C (bitCoeff (r.getLsbD 0)) * generator := by
  have hlost := CharTwo.add_self_eq_zero (C (bitCoeff (r.getLsbD 0)) * X ^ 32 : (ZMod 2)[X])
  rw [shift1_eq, regPoly_xor, regPoly_feedback, ← regPoly_shiftRight, generator]
  linear_combination -hlost

theorem regPoly_bitstep (r : Word) (d : Bool) :
    ∃ c, regPoly (bitstep r d) = X * regPoly r + C (bitCoeff d) * X ^ 32 + c * generator := by
  refine ⟨C (bitCoeff ((r ^^^ (BitVec.ofBool d).setWidth 32).getLsbD 0)), ?_⟩
  rw [bitstep, regPoly_shift1, regPoly_xor, regPoly_bit]
  ring

/-! ### The polynomial of a message (R77) -/

/-- The polynomial of some bits, the first one at the highest power. -/
noncomputable def streamPoly (l : List Bool) : (ZMod 2)[X] :=
  ∑ i ∈ Finset.range l.length, if l.getD i false then X ^ (l.length - 1 - i) else 0

theorem streamPoly_append_singleton (l : List Bool) (d : Bool) : streamPoly (l ++ [d]) = X * streamPoly l + C (bitCoeff d) := by
  have hlast : (if (l ++ [d]).getD l.length false then X ^ (l.length + 1 - 1 - l.length) else 0 : (ZMod 2)[X]) = C (bitCoeff d) := by
    cases d <;> simp
  have hbefore : ∀ i ∈ Finset.range l.length,
      (if (l ++ [d]).getD i false then X ^ (l.length + 1 - 1 - i) else 0 : (ZMod 2)[X]) =
        X * if l.getD i false then X ^ (l.length - 1 - i) else 0 := by
    intro i hi
    have hi := Finset.mem_range.1 hi
    have hpow : l.length + 1 - 1 - i = l.length - 1 - i + 1 := by omega
    rw [List.getD_append _ _ _ _ hi, hpow, pow_succ', mul_ite, mul_zero]
  rw [streamPoly, streamPoly, List.length_append, List.length_singleton, Finset.sum_range_succ, hlast, Finset.mul_sum,
    Finset.sum_congr rfl hbefore]

/-- The initial register is the sum of all powers below `x^32`. -/
theorem regPoly_crcInit : regPoly crcInit = ∑ k ∈ Finset.range 32, X ^ k := by
  refine Finset.sum_congr rfl fun k _ => ?_
  have hbit : crcInit.getLsbD (31 - k) = true := by
    rw [show crcInit = BitVec.allOnes 32 by decide, BitVec.getLsbD_allOnes]
    exact decide_eq_true (by omega)
  rw [hbit, bitCoeff_true, C_1, one_mul]

/-- The register after some bits is congruent to their polynomial, `x^32` times it, with the initial register before it. -/
theorem generator_dvd_stream_sub_register (l : List Bool) :
    generator ∣ streamPoly l * X ^ 32 + regPoly crcInit * X ^ l.length - regPoly (l.foldl bitstep crcInit) := by
  induction l using List.reverseRecOn with
  | nil => simp [streamPoly]
  | append_singleton l d ih =>
    obtain ⟨q, hq⟩ := ih
    obtain ⟨c, hc⟩ := regPoly_bitstep (l.foldl bitstep crcInit) d
    refine ⟨X * q - c, ?_⟩
    rw [streamPoly_append_singleton, List.foldl_append, List.foldl_cons, List.foldl_nil, hc, List.length_append, List.length_singleton]
    linear_combination X * hq

/-- The register after some bits is the remainder of the division by the generator (R77). -/
theorem stream_modByMonic_generator (l : List Bool) :
    (streamPoly l * X ^ 32 + regPoly crcInit * X ^ l.length) %ₘ generator = regPoly (l.foldl bitstep crcInit) := by
  rw [modByMonic_eq_of_dvd_sub generator_monic (generator_dvd_stream_sub_register l), modByMonic_eq_self_iff generator_monic,
    generator_degree]
  exact regPoly_degree_lt _

/-! ### The obligation, tier 2 -/

/-- Settles O45: bit by bit the register stays the remainder (`stream_modByMonic_generator`), and its bits are its coefficients. -/
theorem registerIsThePolynomialRemainder : Obligations.RegisterIsThePolynomialRemainder := by
  intro m G I D hG hI hD k hk
  have hrem := stream_modByMonic_generator (messageBits m)
  rw [streamPoly, messageBits_length, ← hD, regPoly_crcInit, ← hI, generator_eq, ← hG, foldl_bitstep_messageBits] at hrem
  rw [hrem, regPoly_coeff, if_pos hk, bitCoeff_eq_one_iff]
  rfl

end Sys2Proof.Machine
end

section
/-! Family 41_message_commands: what `NOP`, `INIT` and `UPD` do in every state (R100, R101, R102), and `UPD` and `LDX` interleaved (U8,
D13). Lemmas first, then the obligations. -/

namespace Sys2Proof.Machine

/-! ### `NOP` and `INIT` -/

/-- `NOP` changes nothing, faulted or not (R100). -/
theorem exec_nop (s : State) : exec .nop s = .next s := exec_eq_self (effectOf_nop s)

/-- In an unfaulted state `INIT` gives the reset state (R101). -/
theorem clearMessage_eq_reset {s : State} (hf : s.fault = .none) : clearMessage s = { State.reset with port := s.port } :=
  State.ext_fields rfl rfl rfl rfl hf rfl

/-! ### Interleaved `UPD` and `LDX` (U8, D13) -/

/-- The commands that carry data are `UPD` and `LDX`. -/
theorem carriesData_iff (i : Instr) : carriesData i = true ↔ (∃ b, i = .upd b) ∨ (∃ b, i = .ldx b) := by
  cases i <;> simp [carriesData]

@[simp] theorem messageBytes_upd (b : Byte) (is : List Instr) : messageBytes (.upd b :: is) = b :: messageBytes is := rfl
@[simp] theorem messageBytes_ldx (b : Byte) (is : List Instr) : messageBytes (.ldx b :: is) = messageBytes is := rfl
@[simp] theorem checksumBytes_upd (b : Byte) (is : List Instr) : checksumBytes (.upd b :: is) = checksumBytes is := rfl
@[simp] theorem checksumBytes_ldx (b : Byte) (is : List Instr) : checksumBytes (.ldx b :: is) = b :: checksumBytes is := rfl

/-- Presenting `UPD` and `LDX` in any order, the loaded bytes finding room, carries `crc` through the message bytes and `exp` through
the checksum bytes, counts the latter, clears `vok` if there is a message byte, and writes nothing else. -/
theorem afterEdges_presentInstrs_data (is : List Instr) {s : State} (hf : s.fault = .none) (hdata : is.all carriesData = true)
    (hroom : s.xcnt.val + (checksumBytes is).length < 5) :
    afterEdges (presentInstrs is) s =
      { s with
        crc := (messageBytes is).foldl bytestep s.crc
        exp := (checksumBytes is).foldl shiftInByte s.exp
        xcnt := ⟨s.xcnt.val + (checksumBytes is).length, hroom⟩
        vok := s.vok && (messageBytes is).isEmpty } := by
  induction is generalizing s with
  | nil => exact State.ext_fields rfl rfl rfl (Bool.and_true _).symm rfl rfl
  | cons i is ih =>
    rw [List.all_cons, Bool.and_eq_true, carriesData_iff] at hdata
    obtain ⟨⟨b, rfl⟩ | ⟨b, rfl⟩, hrest⟩ := hdata
    · rw [afterEdges_presentInstrs_cons _ _ hf, effectOf_upd, ih (by exact hf) hrest (by exact hroom)]
      exact State.ext_fields rfl rfl rfl (by simp) rfl rfl
    · rw [checksumBytes_ldx, List.length_cons] at hroom
      have hx : s.xcnt ≠ 4 := Fin.ne_of_val_ne (by show s.xcnt.val ≠ 4; omega)
      have hval := val_add_one_of_ne_four hx
      rw [afterEdges_presentInstrs_cons _ _ hf, effectOf_ldx, loadByte_of_room b hx,
        ih (by exact hf) hrest (by simp only [State.setXcnt_xcnt]; omega)]
      refine State.ext_fields rfl rfl (Fin.ext ?_) rfl rfl rfl
      simp only [State.setXcnt_xcnt, hval, checksumBytes_ldx, List.length_cons]
      omega

/-! ### The obligations, tier 2 -/

/-- Settles O15: `UPD` has the effect `absorbByte`, and a zero byte leaves only the zero register (`bytestep_zero_byte_eq_self_iff`). -/
theorem updAbsorbsAByte : Obligations.UpdAbsorbsAByte := by
  refine ⟨?writes, ?checksum, ?zero, fun _ _ hf => exec_of_faulted _ hf, fun b => formatC_eq_or 2 b⟩
  case writes => exact fun s b hf => exec_of_none (.upd b) hf
  case checksum =>
    intro s t b m hf hcrc h
    obtain rfl := eq_of_exec hf h
    exact crcOut_of_crc (by rw [effectOf_upd, absorbByte_crc, hcrc, crcRegister_append_singleton])
  case zero =>
    intro s t hf h
    obtain rfl := eq_of_exec hf h
    exact bytestep_zero_byte_eq_self_iff s.crc

/-- Settles O53: each command writes its own stream's registers (`afterEdges_presentInstrs_data`). -/
theorem streamsInterleaveFreely : Obligations.StreamsInterleaveFreely := by
  intro s is rest hf hdata hlen hp
  have hrun := run_edges _ rest s hp
  rw [presentInstrs_length, afterEdges_presentInstrs_data (s := s.setPort rest) is hf hdata (Nat.lt_succ_of_le hlen)] at hrun
  exact ⟨_, hrun, hf, rfl, rfl, rfl, rfl, rfl⟩

/-! ### The obligations, tier 1 -/

/-- Settles O13: a presented `NOP` and an edge without a command (`clockEdgeContract`) both only take the edge off the list. -/
theorem nopChangesNothing : Obligations.NopChangesNothing := by
  obtain ⟨-, -, hraises, -⟩ := reservedWordsRaiseIllegal
  obtain ⟨-, -, hidle, -⟩ := clockEdgeContract
  refine ⟨exec_nop, rfl, fun w => (decodeEncodeInverse w .nop).trans eq_comm, ?illegal, ?edge⟩
  case illegal => exact fun s w hlo hhi => hraises s w ((reservedWord_iff_range w).2 (.inl ⟨hlo, hhi⟩))
  case edge =>
    intro s w rest
    rw [hidle _ _ rest rfl rfl rfl, step_of_presentWord rfl (decode_encode .nop), exec_nop]
    rfl

/-- Settles O14: `INIT` has the effect `clearMessage`, which in an unfaulted state gives the reset state. -/
theorem initStartsANewMessage : Obligations.InitStartsANewMessage := by
  obtain ⟨-, -, hraises, -⟩ := reservedWordsRaiseIllegal
  obtain ⟨-, htwice, -⟩ := nopInitVfyAreIdempotent
  refine ⟨fun s hf => exec_of_none .init hf, ?reset, ?checksum, fun _ hf => exec_of_faulted _ hf, htwice, exec_eq_self rfl, rfl,
    ?illegal⟩
  case reset => exact fun s hf => (exec_of_none .init hf).trans (congrArg _ (clearMessage_eq_reset hf))
  case checksum =>
    intro s t hf h
    obtain rfl := eq_of_exec hf h
    exact crcOut_of_crc (m := []) rfl
  case illegal => exact fun s w hlo hhi => hraises s w ((reservedWord_iff_range w).2 (.inr (.inl ⟨hlo, hhi⟩)))

end Sys2Proof.Machine
end

section
/-! Family 42_verify_commands: what `LDX` and `VFY` do in every state (R110, R111). One rule per outcome of each command, then the
obligations. -/

namespace Sys2Proof.Machine

/-! ### The outcomes of `LDX` and `VFY` -/

/-- In an unfaulted state `LDX` shifts in and counts a byte for which there is room (R110). -/
theorem exec_ldx_of_room (b : Byte) {s : State} (hf : s.fault = .none) (hx : s.xcnt ≠ 4) :
    exec (.ldx b) s = .next ((s.setExp (shiftInByte s.exp b)).setXcnt (s.xcnt + 1)) := by
  rw [exec_of_none _ hf, effectOf_ldx, loadByte_of_room b hx]

/-- In an unfaulted state `LDX` of a fifth byte raises `PROTOCOL` (R110). -/
theorem exec_ldx_of_full (b : Byte) {s : State} (hf : s.fault = .none) (hx : s.xcnt = 4) :
    exec (.ldx b) s = .next (raiseFault .protocol s) := by
  rw [exec_of_none _ hf, effectOf_ldx, loadByte_of_full b hx]

/-- In an unfaulted state `VFY` before four bytes are loaded raises `PROTOCOL`, whatever the checksum is (R111, R143). -/
theorem exec_vfy_of_room {s : State} (hf : s.fault = .none) (hx : s.xcnt ≠ 4) :
    exec .vfy s = .next (raiseFault .protocol s) := by
  rw [exec_of_none _ hf, effectOf_vfy, compareChecksum_of_room hx]

/-- In an unfaulted state `VFY` of the right checksum writes `vok` (R111). -/
theorem exec_vfy_of_match {s : State} (hf : s.fault = .none) (hx : s.xcnt = 4) (hm : s.crcOut = s.exp) :
    exec .vfy s = .next (s.setVok true) := by
  rw [exec_of_none _ hf, effectOf_vfy, compareChecksum_of_match hx hm]

/-- In an unfaulted state `VFY` of a wrong checksum raises `CHECKSUM` (R111). -/
theorem exec_vfy_of_mismatch {s : State} (hf : s.fault = .none) (hx : s.xcnt = 4) (hm : s.crcOut ≠ s.exp) :
    exec .vfy s = .next (raiseFault .checksum s) := by
  rw [exec_of_none _ hf, effectOf_vfy, compareChecksum_of_mismatch hx hm]

/-- Under the register invariant `exp` has room for one more byte while fewer than four are loaded (R21 item 2). -/
theorem exp_lt_of_room {s : State} (h : s.Inv) (hx : s.xcnt ≠ 4) : s.exp.toNat < 2 ^ 24 :=
  lt_two_pow_24_of_count (lt_of_le_of_ne h.xcnt_le (Fin.val_ne_of_ne hx)) h.exp_lt

/-! ### The obligation, tier 2 -/

/-- Settles O16: one rule per outcome of `LDX`; after an `INIT` four bytes find room, and shifted in they are their concatenation
(`loadedValue_four`). -/
theorem ldxLoadsAChecksumByte : Obligations.LdxLoadsAChecksumByte := by
  refine ⟨?room, fun _ b hf hx => exec_ldx_of_full b hf hx, fun _ _ hf => exec_of_faulted _ hf, fun b => formatC_eq_or 3 b, ?four,
    fun _ hinv hx => ⟨exp_lt_of_room hinv hx, vok_of_room hinv hx⟩⟩
  case room => exact fun s b hf hx => ⟨exec_ldx_of_room b hf hx, val_add_one_of_ne_four hx⟩
  case four =>
    intro s s0 b0 b1 b2 b3 hf h
    obtain rfl := eq_of_exec hf h
    have room (k : Fin 4) : k.castSucc ≠ 4 := k.castSucc_lt_last.ne
    exact ⟨_, _, _, _, exec_ldx_of_room b0 hf (room 0), exec_ldx_of_room b1 hf (room 1), exec_ldx_of_room b2 hf (room 2),
      exec_ldx_of_room b3 hf (room 3), loadedValue_four b0 b1 b2 b3, rfl, hf⟩

/-! ### The obligation, tier 1 -/

/-- Settles O17: one rule per outcome of `VFY`; only a match leaves `fault` at 0, and a match repeated is idempotent
(`nopInitVfyAreIdempotent`). -/
theorem vfyComparesTheChecksum : Obligations.VfyComparesTheChecksum := by
  obtain ⟨-, -, hraises, -⟩ := reservedWordsRaiseIllegal
  obtain ⟨-, -, htwice, -⟩ := nopInitVfyAreIdempotent
  refine ⟨fun _ hf hx => exec_vfy_of_room hf hx, fun _ hf hx hm => exec_vfy_of_match hf hx hm,
    fun _ hf hx hm => exec_vfy_of_mismatch hf hx hm, fun _ hf => exec_of_faulted _ hf, ?again, ?empty, rfl, ?illegal⟩
  case again =>
    intro s t h ht
    obtain ⟨-, -, rfl⟩ := match_of_unfaulted_vfy h ht
    exact htwice s _ h rfl ht
  case empty => exact exec_vfy_of_match (s := { State.reset with xcnt := 4 }) rfl rfl (crcOut_of_crc (m := []) rfl)
  case illegal => exact fun s w hlo hhi => hraises s w ((reservedWord_iff_range w).2 (.inr (.inr (.inl ⟨hlo, hhi⟩))))

end Sys2Proof.Machine
end

section
/-! Family 43_chunk_transactions: where the transactions on a chunk end (R120, R121), several chunks one after the other (R122), and what
follows for a chunk that is read back, corrupted or cut short (R123 to R125). Lemmas first, then the obligations. -/

namespace Sys2Proof.Machine

/-! ### Runs of presented commands -/

/-- Presented commands have their effects in order. -/
theorem afterEdges_presentInstrs_append (is js : List Instr) (s : State) :
    afterEdges (presentInstrs (is ++ js)) s = afterEdges (presentInstrs js) (afterEdges (presentInstrs is) s) := by
  rw [presentInstrs, List.map_append]
  exact afterEdges_append _ _ s

/-- A run over the first `k` commands presented has their effects. -/
theorem run_presentInstrs_take {is : List Instr} {rest : List PortInput} {s : State} {k : Nat} (hk : k ≤ is.length)
    (hp : s.port = presentInstrs is ++ rest) :
    Host.Core.run core k s = .next (afterEdges (presentInstrs (is.take k)) (s.setPort (s.port.drop k))) := by
  have htake : s.port.take k = presentInstrs (is.take k) := by
    rw [hp, List.take_append_of_le_length (by simpa using hk)]
    exact List.map_take.symm
  rw [run_eq_afterEdges_take, htake]

/-- A run over all the commands presented has their effects and leaves what is presented after them. -/
theorem run_presentInstrs {is : List Instr} {rest : List PortInput} {s : State} {n : Nat} (hn : is.length = n)
    (hp : s.port = presentInstrs is ++ rest) :
    Host.Core.run core n s = .next (afterEdges (presentInstrs is) (s.setPort rest)) := by
  rw [← run_edges _ rest s hp, presentInstrs_length, hn]

/-- A faulted state ignores every presented command (R142). -/
theorem afterEdges_presentInstrs_of_faulted (is : List Instr) {s : State} (hf : s.fault ≠ .none) :
    afterEdges (presentInstrs is) s = s := by
  induction is with
  | nil => rfl
  | cons i is ih =>
    show afterEdges (presentInstrs is) (effectOfEdge (presentWord (encode i)).edge s) = s
    rw [effectOfEdge_of_faulted Edge.noConfusion hf, ih]

/-- A fault recorded among some presented commands is the one recorded at their end: the first cause is kept (R142). -/
theorem fault_afterEdges_take (is : List Instr) (k : Nat) (s : State) :
    (afterEdges (presentInstrs (is.take k)) s).fault = .none ∨
    (afterEdges (presentInstrs (is.take k)) s).fault = (afterEdges (presentInstrs is) s).fault := by
  by_cases hf : (afterEdges (presentInstrs (is.take k)) s).fault = .none
  · exact .inl hf
  · have hend : afterEdges (presentInstrs is) s = afterEdges (presentInstrs (is.take k)) s := by
      conv_lhs => rw [← List.take_append_drop k is]
      rw [afterEdges_presentInstrs_append, afterEdges_presentInstrs_of_faulted _ hf]
    exact .inr (by rw [hend])

/-! ### The ends of the transactions (R120, R121) -/

/-- The registers after an `INIT`, the message `m` and the checksum bytes `c`, with `l` presented later. -/
def messageState (m c : List Byte) (hc : c.length < 5) (l : List PortInput) : State where
  crc   := crcRegister m
  exp   := loadedValue c
  xcnt  := ⟨c.length, hc⟩
  vok   := false
  fault := .none
  port  := l

@[simp] theorem crcOut_messageState {m c : List Byte} {hc : c.length < 5} {l : List PortInput} :
    (messageState m c hc l).crcOut = crc32 m := crcOut_of_crc rfl

/-- `INIT` and the `UPD` of a message, from any unfaulted state (R101, R102). -/
theorem afterEdges_presentInstrs_message (m : List Byte) {s : State} (hf : s.fault = .none) :
    afterEdges (presentInstrs (.init :: m.map .upd)) s = messageState m [] (by decide) s.port := by
  rw [afterEdges_presentInstrs_cons _ _ hf, effectOf_init, afterEdges_presentInstrs_upd _ (by exact hf)]
  exact State.ext_fields rfl rfl rfl rfl hf rfl

/-- A verify transaction of a chunk whose checksum field is not too long compares the message with the bytes loaded (R121). -/
theorem afterEdges_verifyTransaction (t p : List Byte) {c : List Byte} (hc : c.length < 5) {s : State} (hf : s.fault = .none) :
    afterEdges (presentInstrs (verifyTransaction t p c)) s = compareChecksum (messageState (t ++ p) c hc s.port) := by
  have hmessage := afterEdges_presentInstrs_message (t ++ p) hf
  have hload : afterEdges (presentInstrs (c.map .ldx)) (messageState (t ++ p) [] (by decide) s.port) =
      messageState (t ++ p) c hc s.port := by
    rw [afterEdges_presentInstrs_ldx _ rfl (by simpa [messageState] using hc)]
    exact State.ext_fields rfl rfl (Fin.ext (Nat.zero_add _)) rfl rfl rfl
  rw [verifyTransaction, computeTransaction, chunkMessage, afterEdges_presentInstrs_append, afterEdges_presentInstrs_append,
    hmessage, hload, afterEdges_presentInstrs_cons _ _ rfl]
  rfl

/-- With the right checksum a verify transaction ends verified. -/
theorem verifiedWell_of_match {t p c : List Byte} (hc : c.length = 4) (hm : crc32 (t ++ p) = loadedValue c) {s : State}
    (hf : s.fault = .none) : (afterEdges (presentInstrs (verifyTransaction t p c)) s).verifiedWell := by
  rw [afterEdges_verifyTransaction t p (by omega) hf,
    compareChecksum_of_match (Fin.ext hc) (crcOut_messageState.trans hm)]
  exact ⟨rfl, rfl⟩

/-- With a wrong checksum a verify transaction ends in `CHECKSUM`, the register being that of the message. -/
theorem checksum_of_mismatch {t p c : List Byte} (hc : c.length = 4) (hm : crc32 (t ++ p) ≠ loadedValue c) {s : State}
    (hf : s.fault = .none) :
    (afterEdges (presentInstrs (verifyTransaction t p c)) s).fault = .checksum ∧
    (afterEdges (presentInstrs (verifyTransaction t p c)) s).vok = false ∧
    (afterEdges (presentInstrs (verifyTransaction t p c)) s).crc = crcRegister (t ++ p) := by
  rw [afterEdges_verifyTransaction t p (by omega) hf,
    compareChecksum_of_mismatch (Fin.ext hc) (crcOut_messageState.trans_ne hm)]
  exact ⟨rfl, rfl, rfl⟩

/-- With a short checksum field a verify transaction ends in `PROTOCOL`, whatever the checksum is. -/
theorem protocol_of_short {t p c : List Byte} (hc : c.length < 4) {s : State} (hf : s.fault = .none) :
    (afterEdges (presentInstrs (verifyTransaction t p c)) s).fault = .protocol ∧
    (afterEdges (presentInstrs (verifyTransaction t p c)) s).vok = false := by
  rw [afterEdges_verifyTransaction t p (by omega) hf, compareChecksum_of_room (Fin.ne_of_val_ne hc.ne)]
  exact ⟨rfl, rfl⟩

/-- With a full checksum field a verify transaction ends without a fault or in `CHECKSUM`. -/
theorem fault_verifyTransaction_cases {t p c : List Byte} (hc : c.length = 4) {s : State} (hf : s.fault = .none) :
    (afterEdges (presentInstrs (verifyTransaction t p c)) s).fault = .none ∨
    (afterEdges (presentInstrs (verifyTransaction t p c)) s).fault = .checksum := by
  by_cases hm : crc32 (t ++ p) = loadedValue c
  · exact .inl (verifiedWell_of_match hc hm hf).2
  · exact .inr (checksum_of_mismatch hc hm hf).1

theorem computeTransaction_length {t p : List Byte} (ht : t.length = 4) : (computeTransaction t p).length = 5 + p.length := by
  simp +arith [computeTransaction, chunkMessage, ht]

theorem verifyTransaction_length {t p c : List Byte} (ht : t.length = 4) (hc : c.length = 4) :
    (verifyTransaction t p c).length = 10 + p.length := by
  simp +arith [verifyTransaction, computeTransaction_length ht, hc]

/-! ### Several chunks (R122) -/

@[simp] theorem verifyAll_cons (k : ChunkBytes) (chunks : List ChunkBytes) :
    verifyAll (k :: chunks) = verifyTransaction k.tag k.payload k.checksum ++ verifyAll chunks := rfl

@[simp] theorem verifyAll_append (before after : List ChunkBytes) : verifyAll (before ++ after) = verifyAll before ++ verifyAll after :=
  List.flatMap_append

/-- Good chunks leave the block unfaulted. -/
theorem fault_verifyAll_of_good {chunks : List ChunkBytes} (hframed : ∀ k ∈ chunks, k.framed) (hgood : ∀ k ∈ chunks, k.good) {s : State}
    (hf : s.fault = .none) : (afterEdges (presentInstrs (verifyAll chunks)) s).fault = .none := by
  induction chunks generalizing s with
  | nil => exact hf
  | cons k chunks ih =>
    rw [List.forall_mem_cons] at hframed hgood
    obtain ⟨⟨-, hc⟩, hframed⟩ := hframed
    obtain ⟨hm, hgood⟩ := hgood
    rw [verifyAll_cons, afterEdges_presentInstrs_append]
    exact ih hframed hgood (verifiedWell_of_match hc hm hf).2

/-! ### Changed chunks (R124) -/

/-- The bit at place `j` of the stream is bit `j % 8` of byte `j / 8`. -/
theorem messageBits_getElem? (m : List Byte) (j : Nat) :
    (messageBits m)[j]? = m[j / 8]?.bind (fun b => (byteBits b)[j % 8]?) := by
  induction m generalizing j with
  | nil => simp [messageBits]
  | cons b m ih =>
    rw [messageBits_cons]
    by_cases hj : j < 8
    · rw [List.getElem?_append_left (by simpa using hj), Nat.div_eq_of_lt hj, Nat.mod_eq_of_lt hj]
      rfl
    · obtain ⟨i, rfl⟩ := Nat.exists_eq_add_of_le' (Nat.le_of_not_lt hj)
      rw [List.getElem?_append_right (by simp), byteBits_length, Nat.add_sub_cancel, ih, Nat.add_div_right _ (by decide),
        Nat.add_mod_right]
      rfl

/-- Messages of one length that differ within four consecutive bytes only have different checksums (R81 item 2, in bytes). -/
theorem crc32_ne_of_four_bytes {m m' : List Byte} {pos : Nat} (hlen : m.length = m'.length) (hne : m ≠ m')
    (hagree : ∀ j, j < pos ∨ pos + 4 ≤ j → m[j]? = m'[j]?) : crc32 m ≠ crc32 m' := by
  refine burstsOfThirtyTwoBitsAreCaught m m' (8 * pos) hlen hne fun j hj => ?_
  rw [messageBits_getElem?, messageBits_getElem?, hagree (j / 8) (by omega)]

/-- Four checksum bytes are told from the number they load (R32). -/
theorem loadedValue_injective {c c' : List Byte} (hc : c.length = 4) (hc' : c'.length = 4) (h : loadedValue c = loadedValue c') :
    c = c' := by
  rw [← be4_loadedValue hc, h, be4_loadedValue hc']

/-- Framed chunks with the same message and the same checksum bytes are equal. -/
theorem chunkBytes_ext {k k' : ChunkBytes} (hk : k.framed) (hk' : k'.framed)
    (hm : chunkMessage k.tag k.payload = chunkMessage k'.tag k'.payload) (hc : k.checksum = k'.checksum) : k = k' := by
  obtain ⟨htag, hpayload⟩ := List.append_inj hm (hk.1.trans hk'.1.symm)
  cases k
  cases k'
  simp_all

/-! ### The obligations, tier 2 -/

/-- Settles O47: `INIT` and `UPD` of any message end in its `messageState`, and the first `k` bytes are a message. -/
theorem computeTransactionGivesTheChecksum : Obligations.ComputeTransactionGivesTheChecksum := by
  intro s t p rest hf ht hp
  have hlen : (computeTransaction t p).length = 5 + p.length := computeTransaction_length ht
  constructor
  · have hend := afterEdges_presentInstrs_message (t ++ p) (s := s.setPort rest) hf
    have hrun := run_presentInstrs hlen hp
    rw [computeTransaction, chunkMessage, hend] at hrun
    exact ⟨_, hrun, rfl, rfl, rfl, crcOut_messageState, rfl⟩
  · intro k hk
    have htake : (computeTransaction t p).take (1 + k) = .init :: ((t ++ p).take k).map .upd := by
      rw [Nat.add_comm, List.map_take]
      rfl
    have hrun := run_presentInstrs_take (k := 1 + k) (by omega) hp
    rw [htake, afterEdges_presentInstrs_message _ (by exact hf)] at hrun
    exact ⟨_, hrun, rfl, crcOut_messageState⟩

/-- Settles O48: the comparison at the end has two outcomes, and a fault on the way would still stand at the end. -/
theorem verifyTransactionHasTwoOutcomes : Obligations.VerifyTransactionHasTwoOutcomes := by
  intro s t p c0 c1 c2 c3 rest hf ht hp
  have hc : [c0, c1, c2, c3].length = 4 := rfl
  have hlen := verifyTransaction_length (p := p) ht hc
  rw [← loadedValue_four]
  refine ⟨⟨_, run_presentInstrs hlen hp, afterEdges_port _ _, fun hm => verifiedWell_of_match hc hm hf, ?mismatch⟩, ?way⟩
  case mismatch =>
    intro hm
    obtain ⟨hfault, hvok, -⟩ := checksum_of_mismatch hc hm (s := s.setPort rest) hf
    exact ⟨hvok, hfault⟩
  case way =>
    intro k u hk hu
    rw [run_presentInstrs_take (hk.trans_eq hlen.symm) hp] at hu
    cases hu
    obtain h | h := fault_afterEdges_take (verifyTransaction t p [c0, c1, c2, c3]) k (s.setPort (s.port.drop k))
    · simp [h]
    · obtain h' | h' := fault_verifyTransaction_cases hc (t := t) (p := p) (s := s.setPort (s.port.drop k)) hf
      · simp [h, h']
      · simp [h, h']

/-- Settles O49: good chunks leave the block unfaulted for the next one (`fault_verifyAll_of_good`), so the last good chunk is verified
and the first bad one faults; the chunks after it are ignored. -/
theorem firstBadChunkStopsTheContainer : Obligations.FirstBadChunkStopsTheContainer := by
  intro s chunks rest hf hframed hp
  refine ⟨_, run_presentInstrs rfl hp, afterEdges_port _ _, ?good, ?bad⟩
  case good =>
    intro hne hgood
    obtain ⟨before, k, rfl⟩ := List.eq_nil_or_concat' chunks |>.resolve_left hne
    rw [List.forall_mem_append, List.forall_mem_singleton] at hframed hgood
    obtain ⟨hframed, -, hc⟩ := hframed
    obtain ⟨hgood, hm⟩ := hgood
    rw [verifyAll_append, afterEdges_presentInstrs_append, verifyAll_cons, afterEdges_presentInstrs_append]
    exact verifiedWell_of_match hc hm (fault_verifyAll_of_good hframed hgood hf)
  case bad =>
    rintro before after k rfl hgood hbad
    rw [List.forall_mem_append, List.forall_mem_cons] at hframed
    obtain ⟨hframed, ⟨-, hc⟩, -⟩ := hframed
    have hend := checksum_of_mismatch hc hbad (fault_verifyAll_of_good hframed hgood (s := s.setPort rest) hf)
    rw [verifyAll_append, afterEdges_presentInstrs_append, verifyAll_cons, afterEdges_presentInstrs_append,
      afterEdges_presentInstrs_of_faulted _ (by rw [hend.1]; exact Cause.noConfusion)]
    exact hend

/-- Settles O50: the output is the checksum of the message (O47), and loading its bytes gives it back. -/
theorem computedChecksumVerifies : Obligations.ComputedChecksumVerifies := by
  intro s u s' t p rest rest' ht hf hf' hp hu hp'
  obtain ⟨⟨v, hv, -, -, -, hcrc, -⟩, -⟩ := computeTransactionGivesTheChecksum s t p rest hf ht hp
  obtain rfl : v = u := by cases hv.symm.trans hu; rfl
  have hm : crc32 (t ++ p) = loadedValue (be4 v.crcOut) := by rw [loadedValue_be4, hcrc]
  exact ⟨_, run_presentInstrs (verifyTransaction_length ht rfl) hp', verifiedWell_of_match rfl hm hf', afterEdges_port _ _⟩

/-- Settles O51: the changed chunk is not good, since four message bytes are told by the checksum and checksum bytes by their number. -/
theorem corruptedChunkFaults : Obligations.CorruptedChunkFaults := by
  intro s k k' rest hf hk hk' hgood hne hlen hchange hp
  have hbad : ¬ k'.good := by
    intro hgood'
    obtain ⟨hc, pos, hagree⟩ | ⟨htag, hpayload⟩ := hchange
    · have hm : chunkMessage k'.tag k'.payload ≠ chunkMessage k.tag k.payload := fun hm => hne (chunkBytes_ext hk' hk hm hc)
      have hmlen : (chunkMessage k'.tag k'.payload).length = (chunkMessage k.tag k.payload).length := by
        simp [chunkMessage, hlen, hk.1, hk'.1]
      exact crc32_ne_of_four_bytes hmlen hm hagree (hgood'.trans ((congrArg loadedValue hc).trans hgood.symm))
    · have hm : chunkMessage k'.tag k'.payload = chunkMessage k.tag k.payload := by rw [htag, hpayload]
      have hc : loadedValue k'.checksum = loadedValue k.checksum := hgood'.symm.trans ((congrArg crc32 hm).trans hgood)
      exact hne (chunkBytes_ext hk' hk hm (loadedValue_injective hk'.2 hk.2 hc))
  obtain ⟨ht, hc⟩ := hk'
  obtain ⟨hfault, hvok, -⟩ := checksum_of_mismatch hc hbad (s := s.setPort rest) hf
  exact ⟨_, run_presentInstrs (verifyTransaction_length ht hc) hp, hfault, hvok⟩

/-- Settles O52: `VFY` finds fewer than four bytes loaded (`protocol_of_short`). -/
theorem truncatedChunkIsNeverConfirmed : Obligations.TruncatedChunkIsNeverConfirmed := by
  intro s t p c rest hf hc hp
  obtain ⟨hfault, hvok⟩ := protocol_of_short hc (t := t) (p := p) (s := s.setPort rest) hf
  exact ⟨_, run_presentInstrs rfl hp, hfault, hvok, afterEdges_port _ _⟩

end Sys2Proof.Machine
end

section
/-! Family 60_exceptions: the fault cause a word raises (R140), that raising it writes the register `fault` and nothing else (R141), and
that a faulted state is frozen until reset (R142). Lemmas first, then the obligations. -/

namespace Sys2Proof.Machine

/-! ### The cause a word raises (R140) -/

/-- R140's table, read by what the word decodes to: the cause it raises in an unfaulted state, or none. -/
def causeRaised : Decoded → State → Cause
  | .cmd .nop, _ => .none
  | .cmd .init, _ => .none
  | .cmd (.upd _), _ => .none
  | .cmd (.ldx _), s => if s.xcnt = 4 then .protocol else .none
  | .cmd .vfy, s => if s.xcnt = 4 then (if s.crcOut = s.exp then .none else .checksum) else .protocol
  | .reserved _, _ => .illegal

/-- A word that raises no cause keeps `fault`; one that raises a cause does that and nothing else (R140, R141). -/
theorem effectOfWord_raises (w : CmdWord) (s : State) :
    (causeRaised (decode w) s = .none ∧ (effectOfWord w s).fault = s.fault) ∨
    (causeRaised (decode w) s ≠ .none ∧ effectOfWord w s = raiseFault (causeRaised (decode w) s) s) := by
  unfold effectOfWord
  cases decode w with
  | reserved why => exact .inr ⟨Cause.noConfusion, rfl⟩
  | cmd i =>
    cases i with
    | nop => exact .inl ⟨rfl, rfl⟩
    | init => exact .inl ⟨rfl, rfl⟩
    | upd b => exact .inl ⟨rfl, rfl⟩
    | ldx b =>
      obtain ⟨hx, heq⟩ | ⟨hx, heq⟩ := loadByte_cases b s
      · simp [causeRaised, hx, heq]
      · simp [causeRaised, hx, heq]
    | vfy =>
      obtain ⟨hx, heq⟩ | ⟨hx, hm, heq⟩ | ⟨hx, hm, heq⟩ := compareChecksum_cases s
      · simp [causeRaised, hx, heq]
      · simp [causeRaised, hx, hm, heq]
      · simp [causeRaised, hx, hm, heq]

/-- In an unfaulted state `fault` ends at the cause the word raises. -/
theorem effectOfWord_fault (w : CmdWord) {s : State} (hf : s.fault = .none) :
    (effectOfWord w s).fault = causeRaised (decode w) s := by
  obtain ⟨hc, heq⟩ | ⟨-, heq⟩ := effectOfWord_raises w s
  · rw [heq, hf, hc]
  · rw [heq, raiseFault_fault]

/-- `CHECKSUM` has one row in R140's table. -/
theorem causeRaised_eq_checksum_iff (d : Decoded) (s : State) :
    causeRaised d s = .checksum ↔ d = .cmd .vfy ∧ s.xcnt = 4 ∧ s.crcOut ≠ s.exp := by
  obtain (_ | _ | b | b | _) | why := d <;> simp [causeRaised, ite_eq_iff]

/-- `PROTOCOL` has two rows in R140's table, one for `LDX` and one for `VFY`. -/
theorem causeRaised_eq_protocol_iff (d : Decoded) (s : State) :
    causeRaised d s = .protocol ↔ ((∃ b, d = .cmd (.ldx b)) ∧ s.xcnt = 4) ∨ (d = .cmd .vfy ∧ s.xcnt ≠ 4) := by
  obtain (_ | _ | b | b | _) | why := d <;> simp [causeRaised, ite_eq_iff]

/-- `ILLEGAL` has one row in R140's table. -/
theorem causeRaised_eq_illegal_iff (d : Decoded) (s : State) :
    causeRaised d s = .illegal ↔ ∃ why, d = .reserved why := by
  obtain (_ | _ | b | b | _) | why := d <;> simp [causeRaised, ite_eq_iff]

/-! ### Faults are precise (R141) -/

/-- An edge after which a fault is recorded, from an unfaulted state, has recorded it and done nothing else. -/
theorem effectOfEdge_of_fault {e : Edge} {s : State} (hf : s.fault = .none) (ht : (effectOfEdge e s).fault ≠ .none) :
    effectOfEdge e s = raiseFault (effectOfEdge e s).fault s := by
  cases e with
  | reset => exact absurd rfl ht
  | idle => exact absurd hf ht
  | command w =>
    have he : effectOfEdge (.command w) s = effectOfWord w s := if_pos hf
    rw [he] at ht ⊢
    obtain ⟨-, heq⟩ | ⟨-, heq⟩ := effectOfWord_raises w s
    · exact absurd (heq.trans hf) ht
    · rw [heq, raiseFault_fault]

/-- The code 0 is that of no cause alone (R17). -/
theorem code_ne_zero {c : Cause} (h : c ≠ .none) : c.code ≠ 0 := by
  cases c with
  | none => exact absurd rfl h
  | checksum => decide
  | protocol => decide
  | illegal => decide

/-! ### A faulted state is frozen (R142) -/

/-- Without reset a faulted state ignores every edge. -/
theorem afterEdges_of_faulted {l : List PortInput} {s : State} (hl : ∀ i ∈ l, i.rst = false) (hf : s.fault ≠ .none) :
    afterEdges l s = s := by
  induction l with
  | nil => rfl
  | cons i l ih =>
    obtain ⟨hi, hl⟩ := List.forall_mem_cons.1 hl
    have he : i.edge ≠ .reset := fun he => Bool.noConfusion (hi.symm.trans (rst_of_edge_reset he))
    rw [afterEdges_cons, effectOfEdge_of_faulted he hf, ih hl]

/-- The empty message verified: reset, four `LDX 00`, and a `VFY` that matched. -/
def emptyVerified : State := { State.reset with xcnt := 4, vok := true }

/-- The machine reaches this state from reset. -/
theorem run_emptyVerified :
    Host.Core.run core 5 { State.reset with port := presentInstrs [.ldx 0, .ldx 0, .ldx 0, .ldx 0, .vfy] } =
      .next emptyVerified := rfl

theorem inv_emptyVerified : emptyVerified.Inv := ⟨by decide, by decide, by decide, by decide⟩

/-! ### The obligations, tier 2 -/

/-- Settles O22: `fault` ends at the cause of R140's table, which is then read row by row. -/
theorem faultCausesAreExactlyThese : Obligations.FaultCausesAreExactlyThese := by
  refine ⟨?causes, ?faulted, rfl, rfl, rfl, rfl⟩
  case causes =>
    intro s t w hf h
    rw [execWord_eq, unlessFaulted_of_none _ hf] at h
    cases h
    rw [effectOfWord_fault w hf]
    refine ⟨causeRaised_eq_checksum_iff _ s, causeRaised_eq_protocol_iff _ s, causeRaised_eq_illegal_iff _ s, fun hc => ?_⟩
    obtain ⟨hnone, -⟩ | ⟨-, heq⟩ := effectOfWord_raises w s
    · exact absurd hnone hc
    · exact heq
  case faulted =>
    intro s t w hf h
    rw [execWord_of_faulted w hf] at h
    cases h
    rfl

/-- Settles O23: the edge taken has recorded its cause and done nothing else (`effectOfEdge_of_fault`). -/
theorem faultsArePrecise : Obligations.FaultsArePrecise := by
  refine ⟨?_, fun _ _ => rfl⟩
  intro s t h hf ht
  have hraise : t = raiseFault t.fault (s.setPort s.port.tail) := by
    rw [eq_of_step h] at ht ⊢
    exact effectOfEdge_of_fault hf ht
  rw [hraise]
  exact ⟨rfl, rfl, rfl, rfl, rfl, rfl, code_ne_zero ht⟩

/-- Settles O24: a run from a faulted state is one of ignored edges (`afterEdges_of_faulted`); after a `VFY` that matched, a reserved
word and a fifth `LDX` both leave `vok` at 1. -/
theorem faultedIsFrozenUntilReset : Obligations.FaultedIsFrozenUntilReset := by
  refine ⟨fun _ w hf => execWord_of_faulted w hf, ?frozen, fun _ _ => rst_of_step_clears_fault, fun s _ _ _ hd => execWord_of_cmd hd s,
    fun _ _ _ hf hd => execWord_of_reserved hf hd, ?illegal, ?protocol⟩
  case frozen =>
    intro n s t hf hl h
    rw [run_eq_afterEdges_take, afterEdges_of_faulted hl (by exact hf)] at h
    cases h
    exact ⟨rfl, rfl⟩
  case illegal => exact ⟨emptyVerified, raiseFault .illegal emptyVerified, 0x500, inv_emptyVerified, rfl, rfl, rfl, rfl, rfl⟩
  case protocol => exact ⟨emptyVerified, raiseFault .protocol emptyVerified, 0x300, inv_emptyVerified, rfl, rfl, rfl, rfl, rfl⟩

end Sys2Proof.Machine
end

section
/-! Family 70_reset_and_hazards: reset from any state, at any edge, any number of times (R170). Lemmas first, then the obligation. -/

namespace Sys2Proof.Machine

/-! ### Edges with `rst == 1` -/

/-- At an edge with `rst == 1` the step is the reset operation, whatever stands on the other pins (R170). -/
theorem step_of_rst {s : State} {i : PortInput} {rest : List PortInput} (hp : s.port = i :: rest) (hr : i.rst = true) :
    step s = .next (applyReset (s.setPort rest)) := by
  rw [step_eq_execEdge hp, edge_of_rst hr]
  rfl

/-- Two resets in a row equal one (R170). -/
theorem applyReset_applyReset (s : State) : applyReset (applyReset s) = applyReset s := rfl

/-- The edges of two resets in a row have the effect of one reset (R170). -/
theorem afterEdges_two_resets {i j : PortInput} (hi : i.rst = true) (hj : j.rst = true) (s : State) :
    afterEdges [i, j] s = applyReset s := by
  rw [afterEdges_cons, afterEdges_cons, afterEdges_nil, edge_of_rst hi, edge_of_rst hj]
  exact applyReset_applyReset s

/-! ### The obligation, tier 1 -/

/-- Settles O12: an edge with `rst == 1` is the reset operation (`step_of_rst`), two of them have the effect of one (`afterEdges_two_resets`),
only such an edge clears `fault` (`rst_of_step_clears_fault`), and the clauses about `INIT` are O14's. -/
theorem resetEdgeFromAnyState : Obligations.ResetEdgeFromAnyState := by
  obtain ⟨-, hinit, -, hignored, -⟩ := initStartsANewMessage
  refine ⟨fun _ _ _ _ hp => step_of_rst hp rfl, ?twice, fun _ _ => rst_of_step_clears_fault, hinit, hignored⟩
  case twice =>
    intro s i j rest hi hj hp
    have hrun := run_edges [i, j] rest s hp
    rw [afterEdges_two_resets hi hj] at hrun
    exact hrun.trans (step_of_rst (s := { s with port := j :: rest }) rfl hj).symm

end Sys2Proof.Machine
end
